-- ==== Sys2Proof/Word.lean ====
section
/-! DEFINITION. The widths of the block's data (spec 00_scope R11, R12): every quantity is an unsigned bit vector. -/

namespace Sys2Proof

/-- One byte on the wire (R11). -/
abbrev Byte := BitVec 8

/-- A bus address or a checksum: 16 bits (R11). -/
abbrev Half := BitVec 16

/-- The data word of a host access: 32 bits (R32). -/
abbrev Word := BitVec 32

/-- The byte offset of a host access: 13 bits (R30, R32). -/
abbrev Offset := BitVec 13

end Sys2Proof
end

