-- ==== Sys2Proof/Syntax.lean ====
section
/-! DEFINITION. The abstract syntax: frames (spec 40_frame_codec R71) and one constructor of `Instr` for each row of
spec/opcode_table.json. Sixteen rows are host operations (30_encoding R62); nine are frames told by their command byte
(R59), four of them transmitted by the block and five received by it. -/

namespace Sys2Proof

/-- A decoded frame, the record of R71. -/
structure Frame where
  src : Half
  dst : Half
  ctl : Byte
  pkt : Byte
  cmd : Byte
  payload : List Byte
  crc : Half
  deriving DecidableEq, Repr

/-- The three error kinds of R71. -/
inductive FrameError where
  /-- "the regular structure does not match" (R72) -/
  | malformed
  /-- "the duplicated length bytes differ" (R72) -/
  | lengthMismatch
  /-- "the recomputed 16-bit sum differs from the trailer" (R72) -/
  | checksum
  deriving DecidableEq, Repr

/-- The verdict over one receive buffer (R71). -/
inductive Verdict where
  | ok (f : Frame)
  | bad (e : FrameError)
  deriving DecidableEq, Repr

/-- What a received frame carries besides its command byte, which its row fixes, and its checksum, which the other
fields determine (R52, R56). -/
structure RxFields where
  src : Half
  dst : Half
  ctl : Byte
  pkt : Byte
  payload : List Byte
  deriving DecidableEq, Repr

/-- The three places an encoding is read from: the CMD register (R61), the frames the block transmits (R103 to R106) and
the receive buffers (R72). The same command byte names another row on each side (R59). -/
inductive Port where
  | hostCommand
  | transmit
  | receive
  deriving DecidableEq, Repr

/-- One constructor per row of spec/opcode_table.json, in the table's order. -/
inductive Instr where
  /-- OP 0x0 (R111) -/
  | nop
  /-- OP 0x1, Phase A (R112) -/
  | discover
  /-- OP 0x2, Phase B for the device `ARG[7:0]` (R113) -/
  | enumerate
  /-- OP 0x3, Phase C for the poll time `ARG` (R114) -/
  | poll
  /-- OP 0x4, CONTINUE (R115) -/
  | continuePoll
  /-- OP 0x5 (R116) -/
  | abort
  /-- OP 0x6, reserved (R118) -/
  | reserved6
  /-- OP 0x7, reserved (R118) -/
  | reserved7
  /-- OP 0x8, reserved (R118) -/
  | reserved8
  /-- OP 0x9, reserved (R118) -/
  | reserved9
  /-- OP 0xA, reserved (R118) -/
  | reservedA
  /-- OP 0xB, reserved (R118) -/
  | reservedB
  /-- OP 0xC, reserved (R118) -/
  | reservedC
  /-- OP 0xD, reserved (R118) -/
  | reservedD
  /-- OP 0xE, reserved (R118) -/
  | reservedE
  /-- OP 0xF (R117) -/
  | reset
  /-- The discovery request, command 6 (R103) -/
  | txGetNetStart
  /-- A received frame with command byte 6 (R125) -/
  | rxGetNetStart (f : RxFields)
  /-- The channel enumeration request to the bus address `dst`, command 9 (R104) -/
  | txGetCinfo (dst : Half)
  /-- A received frame with command byte 9 (R121) -/
  | rxGetCinfo (f : RxFields)
  /-- The synchronisation request for time `t`, command 10 (R105) -/
  | txSynOnline (t : Word)
  /-- The data request to `dst` for the channel `(type1, type2, index)`, command 11 (R106) -/
  | txGetData (dst : Half) (type1 type2 index : Byte)
  /-- A received frame with command byte 11 (R121) -/
  | rxGetData (f : RxFields)
  /-- A received frame with command byte 12, which the block never sends (R4, R59) -/
  | cmdSetData (f : RxFields)
  /-- A received frame with command byte 40, which the block never sends (R4, R59) -/
  | cmdPdelimit (f : RxFields)
  deriving DecidableEq, Repr

end Sys2Proof
end

