-- ==== Sys2Proof/WellFormed.lean ====
section
/-! DEFINITION. Which instructions have an encoding: a frame's length byte holds a payload length of 0 to 255
(spec 00_scope R11, 30_encoding R53). Host operations and requests have no operand that could be out of range. -/

namespace Sys2Proof

/-- The payload of a frame is at most 255 bytes long (R11, R53). -/
def RxFields.wellFormed (f : RxFields) : Bool := decide (f.payload.length ≤ 255)

/-- The instruction has an encoding. -/
def WellFormed : Instr → Bool
  | .nop => true
  | .discover => true
  | .enumerate => true
  | .poll => true
  | .continuePoll => true
  | .abort => true
  | .reserved6 => true
  | .reserved7 => true
  | .reserved8 => true
  | .reserved9 => true
  | .reservedA => true
  | .reservedB => true
  | .reservedC => true
  | .reservedD => true
  | .reservedE => true
  | .reset => true
  | .txGetNetStart => true
  | .rxGetNetStart f => f.wellFormed
  | .txGetCinfo _ => true
  | .rxGetCinfo f => f.wellFormed
  | .txSynOnline _ => true
  | .txGetData _ _ _ _ => true
  | .rxGetData f => f.wellFormed
  | .cmdSetData f => f.wellFormed
  | .cmdPdelimit f => f.wellFormed

end Sys2Proof
end

