-- ==== Sys2Proof/Decode.lean ====
section
/-! DEFINITION. The encodings of the block and their decoders: byte order (spec 20_memory R44, R45), the checksum
(40_frame_codec R69), the frame layout and its encoder (30_encoding R52, R66), the decoder over one receive buffer (R72),
the host command word (R61, R62), and, over these, `decode` and `encode` for the rows of the opcode table. -/

namespace Sys2Proof

/-! ### Byte order (R12, R44, R45) -/

/-- `lo8(v) = v[7:0]` (R12). -/
def lo8 (v : Half) : Byte := v.extractLsb' 0 8

/-- `hi8(v) = v[15:8]` (R12). -/
def hi8 (v : Half) : Byte := v.extractLsb' 8 8

/-- `le16(lo, hi) = zext_16(lo) + 256 * zext_16(hi)` (R12). -/
def le16 (lo hi : Byte) : Half := BitVec.ofNat 16 (lo.toNat + 256 * hi.toNat)

/-- `le32(b0, b1, b2, b3) = b0 + 2^8*b1 + 2^16*b2 + 2^24*b3` (R12). -/
def le32 (b0 b1 b2 b3 : Byte) : Word :=
  BitVec.ofNat 32 (b0.toNat + 2 ^ 8 * b1.toNat + 2 ^ 16 * b2.toNat + 2 ^ 24 * b3.toNat)

/-- The four bytes of a word, least significant first (R44). -/
def le32Bytes (w : Word) : List Byte :=
  [w.extractLsb' 0 8, w.extractLsb' 8 8, w.extractLsb' 16 8, w.extractLsb' 24 8]

/-! ### Checksum (R69) -/

/-- One byte added to a running sum, modulo 2^16 (R69, R70). -/
def addByte (sum : Half) (b : Byte) : Half := sum + b.setWidth 16

/-- `Checksum(bytes)`: the unsigned sum of the bytes, modulo 2^16 (R69; 90_conflicts C1: no polynomial). -/
def checksum (bytes : List Byte) : Half := bytes.foldl addByte 0

/-! ### The frame layout and the encoder (R52, R56, R66) -/

/-- The seven header bytes a checksum covers before the payload (R52, R56). -/
def headerBytes (src dst : Half) (ctl pkt cmd : Byte) : List Byte :=
  [lo8 src, hi8 src, lo8 dst, hi8 dst, ctl, pkt, cmd]

/-- The trailer: the checksum, low byte first, and the end marker (R52, R57). -/
def trailerBytes (crc : Half) : List Byte := [lo8 crc, hi8 crc, 0x16]

/-- The bytes of a frame with wake bytes (R52). The length bytes hold the payload length, at most 255 (R53). -/
def frameBytes (src dst : Half) (ctl pkt cmd : Byte) (payload : List Byte) : List Byte :=
  let len : Byte := BitVec.ofNat 8 payload.length
  let covered := headerBytes src dst ctl pkt cmd ++ payload
  [0xAA, 0xAA, 0x68, len, len, 0x68] ++ covered ++ trailerBytes (checksum covered)

/-- `Encode(dst, pkt, cmd, ctl, payload)` (R66): the source address is always 0, the controller's (R67). Its precondition
is `payload.length ≤ 255`. -/
def encodeFrame (dst : Half) (pkt cmd ctl : Byte) (payload : List Byte) : List Byte :=
  frameBytes 0 dst ctl pkt cmd payload

/-! ### The decoder over one receive buffer (R72) -/

/-- The buffer starts with exactly the wake bytes `AA AA` (R72, R73). -/
def hasWake (buf : List Byte) : Bool :=
  decide (2 ≤ buf.length) && buf.getD 0 0 == 0xAA && buf.getD 1 0 == 0xAA

/-- The body: the buffer without the optional wake bytes (R72). -/
def frameBody (buf : List Byte) : List Byte := if hasWake buf then buf.drop 2 else buf

/-- `Decode(buf)` (R72): the verdict for one receive buffer. The first failing test gives the error (R74). -/
def decodeFrame (buf : List Byte) : Verdict :=
  let body := frameBody buf
  let byte (i : Nat) : Byte := body.getD i 0
  let n := (byte 1).toNat
  if body.length < 4 then .bad .malformed
  else if byte 0 ≠ 0x68 ∨ byte 3 ≠ 0x68 then .bad .malformed
  else if body.length ≠ 14 + n then .bad .malformed
  else if byte (13 + n) ≠ 0x16 then .bad .malformed
  else if byte 1 ≠ byte 2 then .bad .lengthMismatch
  else if checksum ((body.drop 4).take (7 + n)) ≠ le16 (byte (11 + n)) (byte (12 + n)) then .bad .checksum
  else .ok { src := le16 (byte 4) (byte 5), dst := le16 (byte 6) (byte 7), ctl := byte 8, pkt := byte 9, cmd := byte 10,
             payload := (body.drop 11).take n, crc := le16 (byte (11 + n)) (byte (12 + n)) }

/-! ### Rows of the opcode table -/

/-- The operation a CMD word selects by its bits [3:0]; bits [31:4] are ignored (R61, R62). -/
def decodeCommand (w : Word) : Instr :=
  match (w.extractLsb' 0 4).toNat with
  | 0 => .nop
  | 1 => .discover
  | 2 => .enumerate
  | 3 => .poll
  | 4 => .continuePoll
  | 5 => .abort
  | 6 => .reserved6
  | 7 => .reserved7
  | 8 => .reserved8
  | 9 => .reserved9
  | 10 => .reservedA
  | 11 => .reservedB
  | 12 => .reservedC
  | 13 => .reservedD
  | 14 => .reservedE
  | _ => .reset

/-- The fields a receive row keeps of a frame. -/
def Frame.fields (f : Frame) : RxFields :=
  { src := f.src, dst := f.dst, ctl := f.ctl, pkt := f.pkt, payload := f.payload }

/-- The frame of a receive row: its command byte is the row's and its checksum is the sum of its bytes (R56). -/
def RxFields.frame (cmd : Byte) (f : RxFields) : Frame :=
  { src := f.src, dst := f.dst, ctl := f.ctl, pkt := f.pkt, cmd := cmd, payload := f.payload,
    crc := checksum (headerBytes f.src f.dst f.ctl f.pkt cmd ++ f.payload) }

/-- The bytes of a receive row's frame, with the wake bytes. -/
def RxFields.bytes (cmd : Byte) (f : RxFields) : List Byte := frameBytes f.src f.dst f.ctl f.pkt cmd f.payload

/-- The receive row of a good frame, told by its command byte (R59); `none` for a command byte the table does not list,
which the block carries like any other (R59, R63). -/
def receivedRow (f : Frame) : Option Instr :=
  if f.cmd = 6 then some (.rxGetNetStart f.fields)
  else if f.cmd = 9 then some (.rxGetCinfo f.fields)
  else if f.cmd = 11 then some (.rxGetData f.fields)
  else if f.cmd = 12 then some (.cmdSetData f.fields)
  else if f.cmd = 40 then some (.cmdPdelimit f.fields)
  else none

/-- The transmit row of a frame: `none` unless the frame is one of the requests of R103 to R106. -/
def requestRow (f : Frame) : Option Instr :=
  if f.src ≠ 0 ∨ f.pkt ≠ 0 then none
  else match f.payload with
    | [] =>
      if f.cmd = 6 ∧ f.ctl = 128 ∧ f.dst = 0 then some .txGetNetStart
      else if f.cmd = 9 ∧ f.ctl = 0 then some (.txGetCinfo f.dst)
      else none
    | [type1, type2, index] =>
      if f.cmd = 11 ∧ f.ctl = 0 then some (.txGetData f.dst type1 type2 index) else none
    | [t0, t1, t2, t3] =>
      if f.cmd = 10 ∧ f.ctl = 128 ∧ f.dst = 0 then some (.txSynOnline (le32 t0 t1 t2 t3)) else none
    | _ => none

/-- Why bytes are no instruction. -/
inductive Reject where
  /-- a host command is one 32-bit word (R32, R61) -/
  | notOneWord
  /-- the buffer's verdict is an error (R72) -/
  | badFrame (e : FrameError)
  /-- a good frame whose command byte the table does not list (R59) -/
  | unlistedCommand (cmd : Byte)
  /-- the block always emits the wake bytes (R54) -/
  | noWakeBytes
  /-- a good frame that the block never transmits (R4, R102) -/
  | neverTransmitted (cmd : Byte)
  deriving DecidableEq, Repr

/-- What a decoder answers. -/
inductive Decoded where
  | instr (i : Instr)
  | rejected (r : Reject)
  deriving DecidableEq, Repr

/-- The instruction, if there is one. -/
def Decoded.toOption : Decoded → Option Instr
  | .instr i => some i
  | .rejected _ => none

/-- Decoding at the CMD register: one word, its first byte the lowest bits. -/
def decodeHostCommand : List Byte → Decoded
  | [b0, b1, b2, b3] => .instr (decodeCommand (le32 b0 b1 b2 b3))
  | _ => .rejected .notOneWord

/-- Decoding a received buffer. -/
def decodeReceived (buf : List Byte) : Decoded :=
  match decodeFrame buf with
  | .bad e => .rejected (.badFrame e)
  | .ok f =>
    match receivedRow f with
    | some i => .instr i
    | none => .rejected (.unlistedCommand f.cmd)

/-- Decoding a transmitted frame. -/
def decodeTransmitted (buf : List Byte) : Decoded :=
  if hasWake buf then
    match decodeFrame buf with
    | .bad e => .rejected (.badFrame e)
    | .ok f =>
      match requestRow f with
      | some i => .instr i
      | none => .rejected (.neverTransmitted f.cmd)
  else .rejected .noWakeBytes

/-- The decoder, total on any bytes at any port. -/
def decode : Port → List Byte → Decoded
  | .hostCommand, bytes => decodeHostCommand bytes
  | .transmit, bytes => decodeTransmitted bytes
  | .receive, bytes => decodeReceived bytes

/-! ### The encoder -/

/-- The CMD word of an operation code with the ignored bits 0 (R61). -/
def commandBytes (op : Word) : Port × List Byte := (.hostCommand, le32Bytes op)

/-- The bytes of a well-formed instruction and the port they are read from (R62, R103 to R106, R52). -/
def encode : Instr → Port × List Byte
  | .nop => commandBytes 0x0
  | .discover => commandBytes 0x1
  | .enumerate => commandBytes 0x2
  | .poll => commandBytes 0x3
  | .continuePoll => commandBytes 0x4
  | .abort => commandBytes 0x5
  | .reserved6 => commandBytes 0x6
  | .reserved7 => commandBytes 0x7
  | .reserved8 => commandBytes 0x8
  | .reserved9 => commandBytes 0x9
  | .reservedA => commandBytes 0xA
  | .reservedB => commandBytes 0xB
  | .reservedC => commandBytes 0xC
  | .reservedD => commandBytes 0xD
  | .reservedE => commandBytes 0xE
  | .reset => commandBytes 0xF
  | .txGetNetStart => (.transmit, encodeFrame 0 0 6 128 [])
  | .rxGetNetStart f => (.receive, f.bytes 6)
  | .txGetCinfo dst => (.transmit, encodeFrame dst 0 9 0 [])
  | .rxGetCinfo f => (.receive, f.bytes 9)
  | .txSynOnline t => (.transmit, encodeFrame 0 0 10 128 (le32Bytes t))
  | .txGetData dst type1 type2 index => (.transmit, encodeFrame dst 0 11 0 [type1, type2, index])
  | .rxGetData f => (.receive, f.bytes 11)
  | .cmdSetData f => (.receive, f.bytes 12)
  | .cmdPdelimit f => (.receive, f.bytes 40)

/-! ### Words of the opcode table -/

/-- A received frame of zeros whose command byte is `cmd`: a row of the table fixes the command byte alone. -/
def zeroFrameBytes (cmd : Byte) : List Byte := frameBytes 0 0 0 0 cmd []

/-- Where a word of the opcode table is read, and its bytes there. The table's two formats overlap (a value below 16 is an
operation code and may also be a command byte); DESIGN CHOICE (log 3): such a word is a host command. A one-byte word
from 16 on that is a listed command byte is the command byte of a received frame; every other word is a host command. -/
def tableWordBytes (nbits w : Nat) : Port × List Byte :=
  let v := w % 2 ^ nbits
  let received := zeroFrameBytes (BitVec.ofNat 8 v)
  if nbits ≤ 8 ∧ 16 ≤ v ∧ (decodeReceived received).toOption.isSome then (.receive, received)
  else (.hostCommand, le32Bytes (BitVec.ofNat 32 v))

/-- The instruction the decoder reads from a word of the opcode table. -/
def decodeTableWord (nbits w : Nat) : Option Instr :=
  (decode (tableWordBytes nbits w).1 (tableWordBytes nbits w).2).toOption

end Sys2Proof
end

