-- ==== Sys2Proof/Config.lean ====
section
/-! DEFINITION. What an implementation of the block fixes (spec 00_scope R7 to R9, R57). The two capacities are open
parameters that "a model takes as an argument": a value of `Params` is that argument, in range by its type. -/

namespace Sys2Proof

/-- The implementation parameters of R7 and R8. Each field holds the distance from the smallest value the spec admits,
so that every value of the type is within the spec's limits: `255 ≤ P_REASM_MAX ≤ 4096`, `1 ≤ P_MAX_DEVICES ≤ 16`. -/
structure Params where
  reasmExtra : Fin 3842
  deviceExtra : Fin 16
  deriving DecidableEq, Repr

/-- `P_REASM_MAX`, the capacity of the accumulator and of the response buffer (R7). -/
def Params.reasmMax (p : Params) : Nat := 255 + p.reasmExtra.val

/-- `P_MAX_DEVICES`, the number of device table entries (R8). -/
def Params.maxDevices (p : Params) : Nat := 1 + p.deviceExtra.val

/-- The spec's defaults: `P_REASM_MAX = 4096`, `P_MAX_DEVICES = 16` (R7, R8). -/
def Params.default : Params := { reasmExtra := 3841, deviceExtra := 15 }

/-- `N_SLOTS`, the channel request slots of a device (R9). -/
abbrev nSlots : Nat := 8

end Sys2Proof
end

