-- ==== Sys2Proof/Machine/State.lean ====
section
/-! DEFINITION. Every state element of the block (spec 10_state R14 to R27), grouped as that file groups them, its value
after reset (R29), and the two ways an instruction could stop. All of it is plain data. -/

namespace Sys2Proof.Machine

/-! ### Codes and internal states -/

/-- `mux_state` (R15), the sequencer's state; its six values have no encoding the host could see. -/
inductive MuxState where
  | idle
  | tx
  | awaitUni
  | awaitGather
  | settle
  | hold
  deriving DecidableEq, Repr

/-- `cur_op` (R16). -/
inductive CurOp where
  | none
  | discover
  | enumerate
  | poll
  deriving DecidableEq, Repr

/-- `tx_next` (R16): the state entered when the transmission ends. -/
inductive TxNext where
  | awaitUni
  | awaitGather
  | settle
  deriving DecidableEq, Repr

/-- `rx_state` (R19): the nineteen states of the receive parser. -/
inductive RxState where
  | idle
  | wake2
  | start1
  | l1
  | l2
  | start2
  | src0
  | src1
  | dst0
  | dst1
  | ctl
  | pkt
  | cmd
  | pay
  | crc0
  | crc1
  | endMark
  | done
  | err
  deriving DecidableEq, Repr

/-- The completion and result codes of 60_exceptions R134 that end an operation or a unicast transaction; codes 1 to 3
are frame errors and never do. -/
inductive Code where
  | ok
  | fragmentInconsistent
  | noResponse
  | discoveryEmpty
  | transportIo
  | reasmOverflow
  | badOp
  | badDevice
  | aborted
  deriving DecidableEq, Repr

/-- One step of an agent (00_scope R5, R6): a host access or the reset input, a turn of the block's internal step, or a
link event. -/
inductive Event where
  /-- the host reads the register at a byte offset (R32) -/
  | hostRead (off : Offset)
  /-- the host writes a word to the register at a byte offset (R32) -/
  | hostWrite (off : Offset) (w : Word)
  /-- the reset input (R149) -/
  | reset
  /-- the block takes its internal step, if it is enabled (R119) -/
  | blockStep
  /-- one received byte -/
  | rxByte (b : Byte)
  /-- the link has been silent after at least one byte: the end of a receive buffer -/
  | rxQuiet
  /-- no byte arrived in time: an empty read -/
  | rxTimeout
  /-- the wait after a synchronisation broadcast is over -/
  | settleElapsed
  /-- the transport failed -/
  | linkError
  deriving DecidableEq, Repr

/-! ### Byte buffers -/

/-- A byte buffer by index: a list of (index, byte) pairs, the indices strictly rising, no byte equal to what an unlisted
index reads as. -/
abbrev Memory := List Host.Cell

/-- What an index that nothing has written reads as: every buffer is all 0x00 after reset (R29). -/
abbrev unlistedByte : Byte := 0

/-! ### The groups of state elements -/

/-- The sequencer and its latched operands (R15 to R17). -/
structure Sequencer where
  muxState : MuxState
  curOp : CurOp
  txNext : TxNext
  abortPending : Bool
  enumD : BitVec 4
  pollT : Word
  pollD : BitVec 5
  pollK : BitVec 3
  deriving DecidableEq, Repr

/-- The transmit state (R18). -/
structure Transmitter where
  buf : Memory
  len : BitVec 9
  idx : BitVec 9
  deriving DecidableEq, Repr

/-- The receive parser and its field registers (R19, R20). -/
structure Receiver where
  state : RxState
  l1 : Byte
  l2 : Byte
  lenmis : Bool
  sum : Half
  cnt : Byte
  src : Half
  dst : Half
  ctl : Byte
  pkt : Byte
  cmd : Byte
  crc : Half
  pay : Memory
  deriving DecidableEq, Repr

/-- The reassembly accumulator (R21). -/
structure Accumulator where
  valid : Bool
  src : Half
  dst : Half
  ctl : Byte
  cmd : Byte
  pkt : Byte
  len : BitVec 13
  buf : Memory
  deriving DecidableEq, Repr

/-- One entry of the device table (R22); the type tag is stored raw (D42). -/
structure Device where
  addr : Half
  serial : Word
  tag : Vector Byte 8
  deriving DecidableEq, Repr

/-- One channel request slot (R23). -/
structure Slot where
  valid : Bool
  type1 : Byte
  type2 : Byte
  index : Byte
  deriving DecidableEq, Repr

/-- The device table and the channel request table (R22, R23). Storage for the largest table the parameters admit; the
entries from `P_MAX_DEVICES` on do not exist for the block (log 8). -/
structure Tables where
  devCount : BitVec 5
  dev : Vector Device 16
  crt : Vector (Vector Slot 8) 16
  deriving DecidableEq, Repr

/-- The response registers (R24). -/
structure ResponseRegs where
  valid : Bool
  code : BitVec 4
  dev : BitVec 4
  slot : BitVec 3
  src : Half
  dst : Half
  ctl : Byte
  cmd : Byte
  len : BitVec 13
  buf : Memory
  deriving DecidableEq, Repr

/-- Control, operand and status flags (R25, R26). -/
structure Control where
  ie : Bool
  arg : Word
  done : Bool
  err : BitVec 4
  devovf : Bool
  linkerr : Bool
  cmderr : Bool
  deriving DecidableEq, Repr

/-- The event counters (R27). -/
structure Counters where
  mal : Half
  len : Half
  csum : Half
  unsol : Half
  frag : Half
  lastFrameErr : BitVec 4
  deriving DecidableEq, Repr

/-- The MODEL's own fields: the steps still to come, in their order, and the block's outputs so far (R5, R6, R147; log 1,
log 9). No register of the block. -/
structure Environment where
  inputs : List Event
  txStream : List Byte
  rxStream : List Byte
  readData : Word
  deriving DecidableEq, Repr

/-- The whole machine: the parameters it was built with (R7, R8), its state elements, and its environment. -/
structure State where
  params : Params
  seq : Sequencer
  tx : Transmitter
  rx : Receiver
  acc : Accumulator
  tab : Tables
  resp : ResponseRegs
  ctl : Control
  cnt : Counters
  env : Environment
  deriving DecidableEq, Repr

/-- How the machine can stop. The spec lets nothing stop the block: no access traps (R33, R143) and every event has a
rule (R89, R133). -/
inductive Fault where
  /-- Raised by the meaning of a receive row for a payload longer than 255 bytes, which no frame can hold (R11, R53): the
  instruction is not well formed, and no step runs it. Safe. -/
  | payloadTooLong
  deriving DecidableEq, Repr

/-- An instruction without a meaning. -/
inductive Refusal where
  /-- Raised by an arm of `exec` whose instruction has no meaning yet; no arm is left so. Safe. -/
  | notModelled (mnemonic : String)
  deriving DecidableEq, Repr

/-! ### Records the units pass on -/

/-- A reassembled response (41_reassembler R92). -/
structure Response where
  src : Half
  dst : Half
  ctl : Byte
  cmd : Byte
  payload : List Byte
  deriving DecidableEq, Repr

/-- What one reassembly step answers (R92). -/
inductive ReasmResult where
  | pending
  | complete (r : Response)
  | inconsistent
  | overflow
  deriving DecidableEq, Repr

/-- A register of the host space (20_memory R31); window registers carry their indices. -/
inductive HostReg where
  | ctrl
  | cmd
  | status
  | arg
  | devCount
  | cntMal
  | cntLen
  | cntCsum
  | cntUnsol
  | cntFrag
  | lastFrameErr
  | respStatus
  | respSrc
  | respDst
  | respCtlCmd
  | respLen
  | devAddr (i : Nat)
  | devSerial (i : Nat)
  | devTypeLo (i : Nat)
  | devTypeHi (i : Nat)
  | crt (i k : Nat)
  | respBuf (m : Nat)
  | unmapped
  deriving DecidableEq, Repr

/-- What the fetch of a step finds: an instruction to run in a state, or a step that runs none. -/
inductive Fetched where
  | run (i : Instr) (s : State)
  | settled (s : State)
  deriving DecidableEq, Repr

/-! ### Reset values (R29) -/

/-- A device entry after reset: all zero. -/
def Device.zero : Device := { addr := 0, serial := 0, tag := Vector.replicate 8 0 }

/-- A channel request slot after reset: all zero. -/
def Slot.zero : Slot := { valid := false, type1 := 0, type2 := 0, index := 0 }

/-- The machine right after reset, every element at the value of R29, with the default parameters and nothing scheduled
and nothing output yet. -/
def State.reset : State :=
  { params := Params.default
    seq := { muxState := .idle, curOp := .none, txNext := .awaitUni, abortPending := false,
             enumD := 0, pollT := 0, pollD := 0, pollK := 0 }
    tx := { buf := [], len := 0, idx := 0 }
    rx := { state := .idle, l1 := 0, l2 := 0, lenmis := false, sum := 0, cnt := 0, src := 0, dst := 0, ctl := 0,
            pkt := 0, cmd := 0, crc := 0, pay := [] }
    acc := { valid := false, src := 0, dst := 0, ctl := 0, cmd := 0, pkt := 0, len := 0, buf := [] }
    tab := { devCount := 0, dev := Vector.replicate 16 Device.zero,
             crt := Vector.replicate 16 (Vector.replicate 8 Slot.zero) }
    resp := { valid := false, code := 0, dev := 0, slot := 0, src := 0, dst := 0, ctl := 0, cmd := 0, len := 0,
              buf := [] }
    ctl := { ie := false, arg := 0, done := false, err := 0, devovf := false, linkerr := false, cmderr := false }
    cnt := { mal := 0, len := 0, csum := 0, unsol := 0, frag := 0, lastFrameErr := 0 }
    env := { inputs := [], txStream := [], rxStream := [], readData := 0 } }

end Sys2Proof.Machine
end

