-- ==== Sys2Proof/Machine/Flags.lean ====
section
/-! DEFINITION. The status flags, the interrupt line, the codes and the event counters (spec 10_state R26, R27,
20_memory R36, 60_exceptions R134, R142, 40_frame_codec R91). -/

namespace Sys2Proof.Machine

/-- The code of R134, as `err` and `resp_code` hold it. -/
def Code.bits : Code → BitVec 4
  | .ok => 0
  | .fragmentInconsistent => 4
  | .noResponse => 5
  | .discoveryEmpty => 6
  | .transportIo => 7
  | .reasmOverflow => 8
  | .badOp => 9
  | .badDevice => 10
  | .aborted => 11

/-- The code of a frame error (R134), as `last_frame_err` holds it. -/
def frameErrorBits : FrameError → BitVec 4
  | .malformed => 1
  | .lengthMismatch => 2
  | .checksum => 3

/-- `busy = (mux_state /= IDLE)` (R26). -/
def busy (s : State) : Bool := s.seq.muxState != .idle

/-- `hold = (mux_state = HOLD)` (R26). -/
def hold (s : State) : Bool := s.seq.muxState == .hold

/-- `IRQ = ie AND (done OR hold)` (R142), a level recomputed after every step. -/
def irq (s : State) : Bool := s.ctl.ie && (s.ctl.done || hold s)

/-- A field of a register word with its lowest bit at `lo` (20_memory R45); every other bit 0. -/
def field {n : Nat} (lo : Nat) (v : BitVec n) : Word := v.setWidth 32 <<< lo

/-- A one-bit field of a register word. -/
def bit (lo : Nat) (b : Bool) : Word := field lo (BitVec.ofBool b)

/-- The STATUS word (R36); the reserved bits 7:6 and 31:12 are 0. -/
def statusWord (s : State) : Word :=
  bit 0 (busy s) ||| bit 1 s.ctl.done ||| bit 2 (hold s) ||| bit 3 s.ctl.devovf ||| bit 4 s.ctl.linkerr
    ||| bit 5 s.ctl.cmderr ||| field 8 s.ctl.err

/-- A STATUS write (R36): a 1 clears DONE, DEVOVF, LINKERR and CMDERR; no other bit acts. -/
def writeStatus (w : Word) (s : State) : State :=
  { s with ctl := { s.ctl with
      done := s.ctl.done && !w.getLsbD 1
      devovf := s.ctl.devovf && !w.getLsbD 3
      linkerr := s.ctl.linkerr && !w.getLsbD 4
      cmderr := s.ctl.cmderr && !w.getLsbD 5 } }

/-- An error verdict is counted and its code is kept (R91); the counters wrap modulo 2^16 (R27). -/
def countFrameError (e : FrameError) (s : State) : State :=
  let c := { s.cnt with lastFrameErr := frameErrorBits e }
  match e with
  | .malformed => { s with cnt := { c with mal := s.cnt.mal + 1 } }
  | .lengthMismatch => { s with cnt := { c with len := s.cnt.len + 1 } }
  | .checksum => { s with cnt := { c with csum := s.cnt.csum + 1 } }

/-- `cnt_unsol <- (cnt_unsol + 1) mod 2^16` (R120, R125). -/
def countUnsolicited (s : State) : State := { s with cnt := { s.cnt with unsol := s.cnt.unsol + 1 } }

/-- `cnt_frag <- (cnt_frag + 1) mod 2^16` (R124). -/
def countFragment (s : State) : State := { s with cnt := { s.cnt with frag := s.cnt.frag + 1 } }

end Sys2Proof.Machine
end

