-- ==== Sys2Proof/Machine/Operands.lean ====
section
/-! DEFINITION. Every operand the operations take: the ARG register (spec 30_encoding R61, R62), the device table and the
channel request table (10_state R22, R23), the slot order (42_multiplexer R128), and the request frames built from them
(R103 to R106). -/

namespace Sys2Proof.Machine

/-- ENUMERATE's operand, the device index `ARG[7:0]` (R113; 90_conflicts C10). -/
def argDeviceIndex (s : State) : Nat := (s.ctl.arg.extractLsb' 0 8).toNat

/-- POLL's operand, the poll time `T = ARG[31:0]` (R114). -/
def argPollTime (s : State) : Word := s.ctl.arg

/-- `dev[i]` (R22); an index past the table's storage, which no reachable state uses, reads an entry of zeros (log 13). -/
def deviceAt (s : State) (i : Nat) : Device := (s.tab.dev[i]?).getD Device.zero

/-- `dev[i].addr`, the bus address of device `i`. -/
def deviceAddr (s : State) (i : Nat) : Half := (deviceAt s i).addr

/-- The slots of device `i`. -/
def slotRow (s : State) (i : Nat) : Vector Slot 8 := (s.tab.crt[i]?).getD (Vector.replicate 8 Slot.zero)

/-- `crt[i][k]` (R23); an index past the table's storage reads an invalid slot (log 13). -/
def slotAt (s : State) (i k : Nat) : Slot := ((slotRow s i)[k]?).getD Slot.zero

/-- The loop of R128 from `(d, k)` on: the first valid slot of the discovered devices. `fuel` bounds the turns. -/
def scanSlots (s : State) : Nat → Nat → Nat → Option (Nat × Nat)
  | 0, _, _ => none
  | fuel + 1, d, k =>
    if d < s.tab.devCount.toNat then
      if k < nSlots then
        if (slotAt s d k).valid then some (d, k) else scanSlots s fuel d (k + 1)
      else scanSlots s fuel (d + 1) 0
    else none

/-- Turns enough for any loop of R128: at most 31 devices (`dev_count` has 5 bits), nine turns each, and one more. -/
abbrev scanFuel : Nat := 280

/-- `FirstSlot()` (R128). -/
def firstSlot (s : State) : Option (Nat × Nat) := scanSlots s scanFuel 0 0

/-- `NextSlot(d0, k0)` (R128). -/
def nextSlot (s : State) (d0 k0 : Nat) : Option (Nat × Nat) := scanSlots s scanFuel d0 (k0 + 1)

/-- The discovery request (R103). -/
def netStartRequest : List Byte := encodeFrame 0 0 6 128 []

/-- The channel enumeration request (R104). -/
def cinfoRequest (dst : Half) : List Byte := encodeFrame dst 0 9 0 []

/-- The synchronisation request (R105). -/
def synRequest (t : Word) : List Byte := encodeFrame 0 0 10 128 (le32Bytes t)

/-- The data request (R106). -/
def dataRequest (dst : Half) (type1 type2 index : Byte) : List Byte := encodeFrame dst 0 11 0 [type1, type2, index]

/-- The data request of slot `(d, k)` (R106). -/
def slotRequest (s : State) (d k : Nat) : List Byte :=
  dataRequest (deviceAddr s d) (slotAt s d k).type1 (slotAt s d k).type2 (slotAt s d k).index

end Sys2Proof.Machine
end

