-- ==== Sys2Proof/Machine/Ops.lean ====
section
/-! DEFINITION. The named operations over the byte buffers and the state: completing an operation and concluding a
transaction (the block's counterparts of taking an exception, spec 60_exceptions R139), accepting the next operation (its
acknowledgement, R140), transmission (42_multiplexer R102, R119), the reassembler (41_reassembler R93, R94), the delivery
of a good frame (R120 to R126) and reset (R149). -/

namespace Sys2Proof.Machine

/-! ### Byte buffers -/

/-- The byte at an index. -/
def Memory.read : Memory → Nat → Byte
  | [], _ => unlistedByte
  | (x, v) :: rest, a => if a = x then v else Memory.read rest a

/-- A buffer with `b` at the front, unless `b` is what an unlisted index reads as. -/
def Memory.cons (a : Nat) (b : Byte) (m : Memory) : Memory := if b = unlistedByte then m else (a, b) :: m

/-- Writing a byte keeps the canonical form: writing what an unlisted index reads as removes the entry. -/
def Memory.write : Memory → Nat → Byte → Memory
  | [], a, b => Memory.cons a b []
  | (x, v) :: rest, a, b =>
    if a < x then Memory.cons a b ((x, v) :: rest)
    else if a = x then Memory.cons a b rest
    else (x, v) :: Memory.write rest a b

/-- Writing a sequence of bytes from an index on. -/
def Memory.writeBytes : Memory → Nat → List Byte → Memory
  | m, _, [] => m
  | m, a, b :: bs => Memory.writeBytes (Memory.write m a b) (a + 1) bs

/-- The `n` bytes from an index on. -/
def Memory.readBytes (m : Memory) : Nat → Nat → List Byte
  | _, 0 => []
  | a, n + 1 => Memory.read m a :: Memory.readBytes m (a + 1) n

/-- The canonical form: indices strictly rising, no byte equal to what an unlisted index reads as. -/
def Memory.wf : Memory → Bool
  | [] => true
  | [(_, v)] => decide (v ≠ unlistedByte)
  | (x, v) :: (y, w) :: rest => decide (v ≠ unlistedByte) && decide (x < y) && Memory.wf ((y, w) :: rest)

/-- Every listed index is below the buffer's capacity. -/
def Memory.within (m : Memory) (capacity : Nat) : Bool := m.all fun c => decide (c.1 < capacity)

/-! ### Starting, ending and refusing an operation -/

/-- `Accept(op)` (R107): the common start of an operation accepted in IDLE. It also acknowledges the last completion
(R140). -/
def accept (op : CurOp) (s : State) : State :=
  { s with
    seq := { s.seq with curOp := op }
    resp := { s.resp with valid := false }
    ctl := { s.ctl with done := false, err := 0 } }

/-- `complete(code)` (R108), the block's counterpart of a trap entry (R139): the running operation ends, its code is saved
in `err`, the sequencer returns to IDLE and the accumulator is emptied. -/
def complete (code : Code) (s : State) : State :=
  { s with
    seq := { s.seq with muxState := .idle, curOp := .none, abortPending := false }
    acc := { s.acc with valid := false }
    ctl := { s.ctl with done := true, err := code.bits } }

/-- A refused CMD write sets `cmderr` and changes nothing else (R110). -/
def refuse (s : State) : State := { s with ctl := { s.ctl with cmderr := true } }

/-- A reserved operation (R118): `BAD_OP` when idle, refused while busy. -/
def reservedOp (s : State) : State :=
  match s.seq.muxState with
  | .idle => complete .badOp (accept .none s)
  | .tx | .awaitUni | .awaitGather | .settle | .hold => refuse s

/-- Reset (R117, R149): every state element takes the value of R29. The parameters are no state element, and what is
scheduled or was output stays (log 6, log 9). -/
def resetState (s : State) : State := { State.reset with params := s.params, env := s.env }

/-! ### Transmission -/

/-- `StartTx(frame, next)` (R102): the frame goes to the start of `tx_buf`; bytes past it keep their values. -/
def startTx (frame : List Byte) (next : TxNext) (s : State) : State :=
  { s with
    seq := { s.seq with muxState := .tx, txNext := next }
    tx := { buf := Memory.writeBytes s.tx.buf 0 frame, len := BitVec.ofNat 9 frame.length, idx := 0 } }

/-- `ReasmClear` (41_reassembler R93). -/
def reasmClear (s : State) : State := { s with acc := { s.acc with valid := false } }

/-- The transmission has ended (R119): the sequencer enters `tx_next`, with an empty accumulator when it awaits. -/
def enterNext (s : State) : State :=
  match s.seq.txNext with
  | .awaitUni => reasmClear { s with seq := { s.seq with muxState := .awaitUni } }
  | .awaitGather => reasmClear { s with seq := { s.seq with muxState := .awaitGather } }
  | .settle => { s with seq := { s.seq with muxState := .settle } }

/-- One transmit byte goes out and `tx_idx` moves on (R119). -/
def emitByte (s : State) : State :=
  { s with
    tx := { s.tx with idx := s.tx.idx + 1 }
    env := { s.env with txStream := s.env.txStream ++ [Memory.read s.tx.buf s.tx.idx.toNat] } }

/-- The block's internal step (R119), enabled exactly while `mux_state = TX`; otherwise the block waits and all state is
kept (R148). A pending ABORT wins over entering the await (R138). -/
def blockStep (s : State) : State :=
  match s.seq.muxState with
  | .tx =>
    if s.tx.idx + 1 = s.tx.len then
      if s.seq.abortPending then complete .aborted (emitByte s) else enterNext (emitByte s)
    else emitByte s
  | .idle | .awaitUni | .awaitGather | .settle | .hold => s

/-! ### The reassembler -/

/-- The response the accumulator holds (R94). -/
def accResponse (a : Accumulator) : Response :=
  { src := a.src, dst := a.dst, ctl := a.ctl, cmd := a.cmd, payload := Memory.readBytes a.buf 0 a.len.toNat }

/-- The end of `ReasmStep` (R94): a zero packet counter emits the response and empties the accumulator. -/
def reasmFinish (a : Accumulator) : Accumulator × ReasmResult :=
  if a.pkt = 0 then ({ a with valid := false }, .complete (accResponse a)) else (a, .pending)

/-- The accumulator that a first frame starts (R94). -/
def reasmFirst (f : Frame) (a : Accumulator) : Accumulator :=
  { valid := true, src := f.src, dst := f.dst, ctl := f.ctl, cmd := f.cmd, pkt := f.pkt,
    len := BitVec.ofNat 13 f.payload.length, buf := Memory.writeBytes a.buf 0 f.payload }

/-- The accumulator with a further fragment appended (R94). -/
def reasmAppend (f : Frame) (a : Accumulator) : Accumulator :=
  { a with
    pkt := f.pkt
    len := BitVec.ofNat 13 (a.len.toNat + f.payload.length)
    buf := Memory.writeBytes a.buf a.len.toNat f.payload }

/-- `ReasmStep(f)` on the accumulator (R94), `capacity` being `P_REASM_MAX`: the header fields are compared before the
length, and neither is tested on a first fragment (R138); the packet counter's order is not checked (R95). -/
def reasmStep (capacity : Nat) (f : Frame) (a : Accumulator) : Accumulator × ReasmResult :=
  if a.valid = false then reasmFinish (reasmFirst f a)
  else if f.src ≠ a.src ∨ f.dst ≠ a.dst ∨ f.ctl ≠ a.ctl ∨ f.cmd ≠ a.cmd then ({ a with valid := false }, .inconsistent)
  else if capacity < a.len.toNat + f.payload.length then ({ a with valid := false }, .overflow)
  else reasmFinish (reasmAppend f a)

/-! ### Ending a unicast transaction -/

/-- The result registers of a successful transaction (R123). -/
def storeResponse (r : Response) (s : State) : State :=
  { s with resp := { s.resp with
      valid := true
      code := Code.ok.bits
      src := r.src
      dst := r.dst
      ctl := r.ctl
      cmd := r.cmd
      len := BitVec.ofNat 13 r.payload.length
      buf := Memory.writeBytes s.resp.buf 0 r.payload } }

/-- The result registers of a failed transaction (R123, D43). -/
def storeFailure (code : Code) (s : State) : State :=
  { s with resp := { s.resp with
      valid := true
      code := code.bits
      src := 0
      dst := 0
      ctl := 0
      cmd := 0
      len := 0 } }

/-- The end of `conclude` (R123): ENUMERATE completes with the code, a POLL result is held for the host. -/
def concludeOp (code : Code) (s : State) : State :=
  match s.seq.curOp with
  | .enumerate =>
    complete code (reasmClear { s with resp := { s.resp with dev := s.seq.enumD, slot := 0 } })
  | .none | .discover | .poll =>
    reasmClear { s with
      resp := { s.resp with dev := s.seq.pollD.setWidth 4, slot := s.seq.pollK }
      seq := { s.seq with muxState := .hold } }

/-- `conclude(OK, r)` (R123). -/
def concludeOk (r : Response) (s : State) : State := concludeOp .ok (storeResponse r s)

/-- `conclude(code)` for a code other than OK (R123). -/
def concludeFailure (code : Code) (s : State) : State := concludeOp code (storeFailure code s)

/-- `UniResult(res)` (R121). -/
def uniResult (res : ReasmResult) (s : State) : State :=
  match res with
  | .pending => s
  | .complete r => concludeOk r s
  | .inconsistent => concludeFailure .fragmentInconsistent s
  | .overflow => concludeFailure .reasmOverflow s

/-! ### The discovery gather -/

/-- The index of the first discovered device with bus address `a` (R126). -/
def findDevice (s : State) (a : Half) : Option Nat :=
  (List.range s.tab.devCount.toNat).find? fun i => deviceAddr s i == a

/-- Device entry `i` is written (R126). -/
def setDevice (i : Nat) (d : Device) (s : State) : State :=
  { s with tab := { s.tab with dev := s.tab.dev.setIfInBounds i d } }

/-- `GatherInsert(a, s, t)` (R126): a known address is updated in place, a new one is appended, and when the table is full
the response is dropped and `devovf` is set. -/
def gatherInsert (a : Half) (serial : Word) (tag : Vector Byte 8) (s : State) : State :=
  match findDevice s a with
  | some i => setDevice i { deviceAt s i with serial := serial, tag := tag } s
  | none =>
    if s.tab.devCount.toNat < s.params.maxDevices then
      let s' := setDevice s.tab.devCount.toNat { addr := a, serial := serial, tag := tag } s
      { s' with tab := { s'.tab with devCount := s.tab.devCount + 1 } }
    else { s with ctl := { s.ctl with devovf := true } }

/-- The serial number of a discovery payload, its bytes 0 to 3 (R125). -/
def payloadSerial (p : List Byte) : Word := le32 (p.getD 0 0) (p.getD 1 0) (p.getD 2 0) (p.getD 3 0)

/-- The type tag of a discovery payload, its bytes 4 to 11 (R125). -/
def payloadTag (p : List Byte) : Vector Byte 8 :=
  #v[p.getD 4 0, p.getD 5 0, p.getD 6 0, p.getD 7 0, p.getD 8 0, p.getD 9 0, p.getD 10 0, p.getD 11 0]

/-- `GatherResponse(r)` (R125): a discovery answer of at least 12 bytes from a nonzero address names a device; anything
else is counted as unsolicited. -/
def gatherResponse (r : Response) (s : State) : State :=
  if r.cmd = 6 ∧ r.src ≠ 0 ∧ 12 ≤ r.payload.length then
    gatherInsert r.src (payloadSerial r.payload) (payloadTag r.payload) s
  else countUnsolicited s

/-- What the gather does with a reassembly result (R124): a fragment error does not end it. -/
def gatherResult (res : ReasmResult) (s : State) : State :=
  match res with
  | .pending => s
  | .complete r => gatherResponse r s
  | .inconsistent => countFragment s
  | .overflow => countFragment s

/-! ### Delivery of a good frame -/

/-- `ReasmStep(f)` on the state: the accumulator is written, the result is passed on. -/
def reasmState (f : Frame) (s : State) : State :=
  { s with acc := (reasmStep s.params.reasmMax f s.acc).1 }

/-- The result of `ReasmStep(f)` in a state. -/
def reasmAnswer (f : Frame) (s : State) : ReasmResult := (reasmStep s.params.reasmMax f s.acc).2

/-- A good frame is delivered to the multiplexer (R120): a fragment of the awaited response, or unsolicited. Neither the
address nor the command is compared with the request (R121). -/
def deliver (f : Frame) (s : State) : State :=
  match s.seq.muxState with
  | .awaitUni => uniResult (reasmAnswer f s) (reasmState f s)
  | .awaitGather => gatherResult (reasmAnswer f s) (reasmState f s)
  | .idle | .tx | .settle | .hold => countUnsolicited s

/-- The meaning shared by the receive rows: a frame with the row's command byte is delivered. A payload longer than 255
bytes is no frame (R53; log 10). -/
def receiveRow (cmd : Byte) (f : RxFields) (s : State) : Host.Outcome State Fault Refusal :=
  if f.payload.length ≤ 255 then .next (deliver (f.frame cmd) s) else .fault .payloadTooLong

/-! ### Poll sequencing -/

/-- The poll cursor moves to a slot (R115, R129). -/
def setCursor (d k : Nat) (s : State) : State :=
  { s with seq := { s.seq with pollD := BitVec.ofNat 5 d, pollK := BitVec.ofNat 3 k } }

/-- The POLL goes on with a slot, or completes when there is none (R115, R129). -/
def pollSlot (slot : Option (Nat × Nat)) (s : State) : State :=
  match slot with
  | none => complete .ok s
  | some (d, k) => startTx (slotRequest s d k) .awaitUni (setCursor d k s)

end Sys2Proof.Machine
end

