-- ==== Sys2Proof/Machine/HostOps.lean ====
section
/-! DEFINITION. The meanings of the host operations (spec 42_multiplexer R109 to R118): what a CMD write does in each
state of the sequencer. Every operation acts by `mux_state` as the table of R109 says. -/

namespace Sys2Proof.Machine

/-- An operation that only an idle block accepts: while busy it is refused (R109, R110). -/
def whenIdle (act : State → State) (s : State) : State :=
  match s.seq.muxState with
  | .idle => act s
  | .tx | .awaitUni | .awaitGather | .settle | .hold => refuse s

/-- NOP (R111): no state changes, in any state. -/
def execNop (s : State) : Host.Outcome State Fault Refusal := .next s

/-- Every `valid` bit of the channel request table is cleared, the other fields are kept (R112, D17). -/
def invalidateSlots (s : State) : State :=
  { s with tab := { s.tab with
      crt := s.tab.crt.map fun row => row.map fun slot => { slot with valid := false } } }

/-- The tables as DISCOVER leaves them (R112): no device, no valid slot, no overflow. -/
def clearTables (s : State) : State :=
  let s' := invalidateSlots s
  { s' with
    tab := { s'.tab with devCount := 0, dev := Vector.replicate 16 Device.zero }
    ctl := { s'.ctl with devovf := false } }

/-- DISCOVER in IDLE (R112). -/
def discoverIdle (s : State) : State := startTx netStartRequest .awaitGather (clearTables (accept .discover s))

/-- DISCOVER (R112). -/
def execDiscover (s : State) : Host.Outcome State Fault Refusal := .next (whenIdle discoverIdle s)

/-- `enum_d` is latched (R113). -/
def latchDevice (i : Nat) (s : State) : State := { s with seq := { s.seq with enumD := BitVec.ofNat 4 i } }

/-- ENUMERATE in IDLE (R113): an index not below `dev_count` completes with BAD_DEVICE and nothing is transmitted. -/
def enumerateIdle (s : State) : State :=
  let i := argDeviceIndex s
  if s.tab.devCount.toNat ≤ i then complete .badDevice (accept .enumerate s)
  else startTx (cinfoRequest (deviceAddr s i)) .awaitUni (latchDevice i (accept .enumerate s))

/-- ENUMERATE (R113). -/
def execEnumerate (s : State) : Host.Outcome State Fault Refusal := .next (whenIdle enumerateIdle s)

/-- The poll time is latched and the cursor returns to the start (R114). -/
def latchPoll (t : Word) (s : State) : State :=
  { s with seq := { s.seq with pollT := t, pollD := 0, pollK := 0 } }

/-- POLL in IDLE (R114). -/
def pollIdle (s : State) : State :=
  startTx (synRequest (argPollTime s)) .settle (latchPoll (argPollTime s) (accept .poll s))

/-- POLL (R114). -/
def execPoll (s : State) : Host.Outcome State Fault Refusal := .next (whenIdle pollIdle s)

/-- CONTINUE in HOLD (R115): the held result is released and the next slot is requested. -/
def continueHeld (s : State) : State :=
  pollSlot (nextSlot s s.seq.pollD.toNat s.seq.pollK.toNat) { s with resp := { s.resp with valid := false } }

/-- CONTINUE (R115; R109 for the other states). -/
def execContinuePoll (s : State) : Host.Outcome State Fault Refusal :=
  match s.seq.muxState with
  | .idle => .next (complete .badOp (accept .none s))
  | .hold => .next (continueHeld s)
  | .tx | .awaitUni | .awaitGather | .settle => .next (refuse s)

/-- ABORT (R116): deferred to the end of the frame in TX, at once in the other busy states, no effect in IDLE. -/
def execAbort (s : State) : Host.Outcome State Fault Refusal :=
  match s.seq.muxState with
  | .idle => .next s
  | .tx => .next { s with seq := { s.seq with abortPending := true } }
  | .awaitUni | .awaitGather | .settle | .hold => .next (complete .aborted s)

/-- RESERVED_6 (R118). -/
def execReserved6 (s : State) : Host.Outcome State Fault Refusal := .next (reservedOp s)

/-- RESERVED_7 (R118). -/
def execReserved7 (s : State) : Host.Outcome State Fault Refusal := .next (reservedOp s)

/-- RESERVED_8 (R118). -/
def execReserved8 (s : State) : Host.Outcome State Fault Refusal := .next (reservedOp s)

/-- RESERVED_9 (R118). -/
def execReserved9 (s : State) : Host.Outcome State Fault Refusal := .next (reservedOp s)

/-- RESERVED_A (R118). -/
def execReservedA (s : State) : Host.Outcome State Fault Refusal := .next (reservedOp s)

/-- RESERVED_B (R118). -/
def execReservedB (s : State) : Host.Outcome State Fault Refusal := .next (reservedOp s)

/-- RESERVED_C (R118). -/
def execReservedC (s : State) : Host.Outcome State Fault Refusal := .next (reservedOp s)

/-- RESERVED_D (R118). -/
def execReservedD (s : State) : Host.Outcome State Fault Refusal := .next (reservedOp s)

/-- RESERVED_E (R118). -/
def execReservedE (s : State) : Host.Outcome State Fault Refusal := .next (reservedOp s)

/-- RESET (R117): in any state, exactly as the reset input. -/
def execReset (s : State) : Host.Outcome State Fault Refusal := .next (resetState s)

end Sys2Proof.Machine
end

