-- ==== Sys2Proof/Machine/Requests.lean ====
section
/-! DEFINITION. The meanings of the transmit rows: `StartTx` of the row's request frame (spec 42_multiplexer R102 to R106)
with the state its transaction awaits (R101). The operations run them as part of their own step (log 4). -/

namespace Sys2Proof.Machine

/-- TX_GET_NET_START (R103): a broadcast whose responses are gathered (R101). -/
def execTxGetNetStart (s : State) : Host.Outcome State Fault Refusal := .next (startTx netStartRequest .awaitGather s)

/-- TX_GET_CINFO (R104): a unicast request. -/
def execTxGetCinfo (dst : Half) (s : State) : Host.Outcome State Fault Refusal :=
  .next (startTx (cinfoRequest dst) .awaitUni s)

/-- TX_SYN_ONLINE (R105): a broadcast without a response; the settle wait follows (R101). -/
def execTxSynOnline (t : Word) (s : State) : Host.Outcome State Fault Refusal := .next (startTx (synRequest t) .settle s)

/-- TX_GET_DATA (R106): a unicast request. -/
def execTxGetData (dst : Half) (type1 type2 index : Byte) (s : State) : Host.Outcome State Fault Refusal :=
  .next (startTx (dataRequest dst type1 type2 index) .awaitUni s)

end Sys2Proof.Machine
end

