-- ==== Sys2Proof/Machine/Responses.lean ====
section
/-! DEFINITION. The meanings of the receive rows: a good frame with the row's command byte is delivered to the multiplexer
(spec 42_multiplexer R120). The gather looks at the command byte (R125); the unicast await does not (R121); 12 and 40 get no
special handling (30_encoding R59; log 5). -/

namespace Sys2Proof.Machine

/-- RX_GET_NET_START (R125). -/
def execRxGetNetStart (f : RxFields) (s : State) : Host.Outcome State Fault Refusal := receiveRow 6 f s

/-- RX_GET_CINFO (R121). -/
def execRxGetCinfo (f : RxFields) (s : State) : Host.Outcome State Fault Refusal := receiveRow 9 f s

/-- RX_GET_DATA (R121). -/
def execRxGetData (f : RxFields) (s : State) : Host.Outcome State Fault Refusal := receiveRow 11 f s

/-- CMD_SET_DATA (R4, R59). -/
def execCmdSetData (f : RxFields) (s : State) : Host.Outcome State Fault Refusal := receiveRow 12 f s

/-- CMD_PDELIMIT (R4, R59). -/
def execCmdPdelimit (f : RxFields) (s : State) : Host.Outcome State Fault Refusal := receiveRow 40 f s

end Sys2Proof.Machine
end

