-- ==== Sys2Proof/Machine/Dispatch.lean ====
section
/-! DEFINITION. The meaning of each instruction, one arm per row of spec/opcode_table.json. -/

namespace Sys2Proof.Machine

def exec (i : Instr) (s : State) : Host.Outcome State Fault Refusal :=
  match i with
  | .nop => Sys2Proof.Machine.execNop s
  | .discover => Sys2Proof.Machine.execDiscover s
  | .enumerate => Sys2Proof.Machine.execEnumerate s
  | .poll => Sys2Proof.Machine.execPoll s
  | .continuePoll => Sys2Proof.Machine.execContinuePoll s
  | .abort => Sys2Proof.Machine.execAbort s
  | .reserved6 => Sys2Proof.Machine.execReserved6 s
  | .reserved7 => Sys2Proof.Machine.execReserved7 s
  | .reserved8 => Sys2Proof.Machine.execReserved8 s
  | .reserved9 => Sys2Proof.Machine.execReserved9 s
  | .reservedA => Sys2Proof.Machine.execReservedA s
  | .reservedB => Sys2Proof.Machine.execReservedB s
  | .reservedC => Sys2Proof.Machine.execReservedC s
  | .reservedD => Sys2Proof.Machine.execReservedD s
  | .reservedE => Sys2Proof.Machine.execReservedE s
  | .reset => Sys2Proof.Machine.execReset s
  | .txGetNetStart => Sys2Proof.Machine.execTxGetNetStart s
  | .rxGetNetStart f => Sys2Proof.Machine.execRxGetNetStart f s
  | .txGetCinfo dst => Sys2Proof.Machine.execTxGetCinfo dst s
  | .rxGetCinfo f => Sys2Proof.Machine.execRxGetCinfo f s
  | .txSynOnline t => Sys2Proof.Machine.execTxSynOnline t s
  | .txGetData dst type1 type2 index => Sys2Proof.Machine.execTxGetData dst type1 type2 index s
  | .rxGetData f => Sys2Proof.Machine.execRxGetData f s
  | .cmdSetData f => Sys2Proof.Machine.execCmdSetData f s
  | .cmdPdelimit f => Sys2Proof.Machine.execCmdPdelimit f s

end Sys2Proof.Machine
end

