-- ==== Sys2Proof/Machine/HostPort.lean ====
section
/-! DEFINITION. The host register space (spec 20_memory R30 to R43): the register at an offset, reads, and the writes of
every register but CMD, whose write runs an operation. -/

namespace Sys2Proof.Machine

/-- Offset bits [1:0] are ignored (R32). -/
def alignedOffset (off : Offset) : Nat := 4 * (off.toNat / 4)

/-- The device window's register (R31): four words for each entry. -/
def deviceReg (p : Params) (a : Nat) : HostReg :=
  let i := (a - 0x100) / 16
  if p.maxDevices ≤ i then .unmapped
  else match a % 16 / 4 with
    | 0 => .devAddr i
    | 1 => .devSerial i
    | 2 => .devTypeLo i
    | _ => .devTypeHi i

/-- The channel request window's register (R31): eight words for each device. -/
def slotReg (p : Params) (a : Nat) : HostReg :=
  let i := (a - 0x200) / 32
  if p.maxDevices ≤ i then .unmapped else .crt i (a % 32 / 4)

/-- The response window's register (R31): `RESP_BUF[m]` exists for `4m < P_REASM_MAX`. -/
def respReg (p : Params) (a : Nat) : HostReg :=
  if p.reasmMax ≤ a - 0x1000 then .unmapped else .respBuf ((a - 0x1000) / 4)

/-- A register below the windows (R31). -/
def plainReg (a : Nat) : HostReg :=
  if a = 0x000 then .ctrl
  else if a = 0x004 then .cmd
  else if a = 0x008 then .status
  else if a = 0x00C then .arg
  else if a = 0x010 then .devCount
  else if a = 0x014 then .cntMal
  else if a = 0x018 then .cntLen
  else if a = 0x01C then .cntCsum
  else if a = 0x020 then .cntUnsol
  else if a = 0x024 then .cntFrag
  else if a = 0x028 then .lastFrameErr
  else if a = 0x030 then .respStatus
  else if a = 0x034 then .respSrc
  else if a = 0x038 then .respDst
  else if a = 0x03C then .respCtlCmd
  else if a = 0x040 then .respLen
  else .unmapped

/-- The register at an offset (R31, R32). -/
def regAt (p : Params) (off : Offset) : HostReg :=
  let a := alignedOffset off
  if a < 0x100 then plainReg a
  else if a < 0x200 then deviceReg p a
  else if a < 0x400 then slotReg p a
  else if a < 0x1000 then .unmapped
  else respReg p a

/-- The RESP_STATUS word (R40): VALID in bit 31, SLOT in 18:16, DEV in 11:8, CODE in 3:0. -/
def respStatusWord (r : ResponseRegs) : Word :=
  field 0 r.code ||| field 8 r.dev ||| field 16 r.slot ||| bit 31 r.valid

/-- A CRT word (R42): VALID in bit 31, TYPE2 in 23:16, TYPE1 in 15:8, INDEX in 7:0. -/
def slotWord (c : Slot) : Word := field 0 c.index ||| field 8 c.type1 ||| field 16 c.type2 ||| bit 31 c.valid

/-- The slot a CRT write stores (R42). -/
def wordSlot (w : Word) : Slot :=
  { valid := w.getLsbD 31, type1 := w.extractLsb' 8 8, type2 := w.extractLsb' 16 8, index := w.extractLsb' 0 8 }

/-- The byte `B(j)` of the response window (R43): 0x00 at and past `resp_len`. -/
def respByte (r : ResponseRegs) (j : Nat) : Byte := if j < r.len.toNat then Memory.read r.buf j else 0

/-- Four bytes of a type tag from byte `j` on, packed little-endian (R41, R45). -/
def tagWord (tag : Vector Byte 8) (j : Nat) : Word :=
  let b (i : Nat) : Byte := (tag[i]?).getD 0
  le32 (b j) (b (j + 1)) (b (j + 2)) (b (j + 3))

/-- A register's value (R34 to R43); CMD and unmapped offsets read 0 (R33, R35). -/
def readReg (s : State) : HostReg → Word
  | .ctrl => bit 0 s.ctl.ie
  | .cmd => 0
  | .status => statusWord s
  | .arg => s.ctl.arg
  | .devCount => s.tab.devCount.setWidth 32
  | .cntMal => s.cnt.mal.setWidth 32
  | .cntLen => s.cnt.len.setWidth 32
  | .cntCsum => s.cnt.csum.setWidth 32
  | .cntUnsol => s.cnt.unsol.setWidth 32
  | .cntFrag => s.cnt.frag.setWidth 32
  | .lastFrameErr => s.cnt.lastFrameErr.setWidth 32
  | .respStatus => respStatusWord s.resp
  | .respSrc => s.resp.src.setWidth 32
  | .respDst => s.resp.dst.setWidth 32
  | .respCtlCmd => field 0 s.resp.ctl ||| field 8 s.resp.cmd
  | .respLen => s.resp.len.setWidth 32
  | .devAddr i => (deviceAt s i).addr.setWidth 32
  | .devSerial i => (deviceAt s i).serial
  | .devTypeLo i => tagWord (deviceAt s i).tag 0
  | .devTypeHi i => tagWord (deviceAt s i).tag 4
  | .crt i k => slotWord (slotAt s i k)
  | .respBuf m =>
    le32 (respByte s.resp (4 * m)) (respByte s.resp (4 * m + 1)) (respByte s.resp (4 * m + 2))
      (respByte s.resp (4 * m + 3))
  | .unmapped => 0

/-- The value of a host read (R32). -/
def hostRead (s : State) (off : Offset) : Word := readReg s (regAt s.params off)

/-- A host read changes nothing of the block (R32); the host port shows the value. -/
def doHostRead (off : Offset) (s : State) : State := { s with env := { s.env with readData := hostRead s off } }

/-- Slot `(i, k)` is written. -/
def setSlot (i k : Nat) (c : Slot) (s : State) : State :=
  { s with tab := { s.tab with crt := s.tab.crt.setIfInBounds i ((slotRow s i).setIfInBounds k c) } }

/-- A write of a register other than CMD (R33, R34, R36, R37, R42): read-only registers and unmapped offsets ignore it,
and ARG and the channel request table ignore it while busy. A CMD write runs an operation and is not here. -/
def writeReg (w : Word) (s : State) : HostReg → State
  | .ctrl => { s with ctl := { s.ctl with ie := w.getLsbD 0 } }
  | .status => writeStatus w s
  | .arg => if busy s then s else { s with ctl := { s.ctl with arg := w } }
  | .crt i k => if busy s then s else setSlot i k (wordSlot w) s
  | .cmd | .devCount | .cntMal | .cntLen | .cntCsum | .cntUnsol | .cntFrag | .lastFrameErr | .respStatus | .respSrc
  | .respDst | .respCtlCmd | .respLen | .devAddr _ | .devSerial _ | .devTypeLo _ | .devTypeHi _ | .respBuf _
  | .unmapped => s

end Sys2Proof.Machine
end

