-- ==== Sys2Proof/Machine/Link.lean ====
section
/-! DEFINITION. The receive parser (spec 40_frame_codec R76 to R88), one reaction for each of its states, and the link
events that run no instruction (R89, R122, R127, R132, R133). -/

namespace Sys2Proof.Machine

/-- The low byte of a 16-bit field is replaced. -/
def setLo (v : Half) (b : Byte) : Half := le16 b (hi8 v)

/-- The high byte of a 16-bit field is replaced. -/
def setHi (v : Half) (b : Byte) : Half := le16 (lo8 v) b

/-- The next state after a byte that must have one value (R77, R78, R81, R86). -/
def expect (b want : Byte) (next : RxState) : RxState := if b = want then next else .err

/-- The state after the first byte of a buffer (R76). -/
def firstState (b : Byte) : RxState := if b = 0xAA then .wake2 else if b = 0x68 then .l1 else .err

/-- One payload byte (R84): stored at `rx_L1 - rx_cnt`; the payload ends when the decremented count is 0. -/
def parsePayload (r : Receiver) (b : Byte) : Receiver :=
  let n := r.cnt - 1
  { r with
    pay := Memory.write r.pay (r.l1 - r.cnt).toNat b
    sum := addByte r.sum b
    cnt := n
    state := if n = 0 then .crc0 else .pay }

/-- The parser's reaction to one byte in each of its states (R76 to R87). -/
def parseByte (r : Receiver) (b : Byte) : Receiver :=
  match r.state with
  | .idle => { r with sum := 0, lenmis := false, state := firstState b }
  | .wake2 => { r with state := expect b 0xAA .start1 }
  | .start1 => { r with state := expect b 0x68 .l1 }
  | .l1 => { r with l1 := b, state := .l2 }
  | .l2 => { r with l2 := b, lenmis := b != r.l1, state := .start2 }
  | .start2 => { r with state := expect b 0x68 .src0 }
  | .src0 => { r with src := setLo r.src b, sum := addByte r.sum b, state := .src1 }
  | .src1 => { r with src := setHi r.src b, sum := addByte r.sum b, state := .dst0 }
  | .dst0 => { r with dst := setLo r.dst b, sum := addByte r.sum b, state := .dst1 }
  | .dst1 => { r with dst := setHi r.dst b, sum := addByte r.sum b, state := .ctl }
  | .ctl => { r with ctl := b, sum := addByte r.sum b, state := .pkt }
  | .pkt => { r with pkt := b, sum := addByte r.sum b, state := .cmd }
  | .cmd => { r with cmd := b, sum := addByte r.sum b, cnt := r.l1, state := if r.l1 = 0 then .crc0 else .pay }
  | .pay => parsePayload r b
  | .crc0 => { r with crc := setLo r.crc b, state := .crc1 }
  | .crc1 => { r with crc := setHi r.crc b, state := .endMark }
  | .endMark => { r with state := expect b 0x16 .done }
  | .done => { r with state := .err }
  | .err => r

/-- The parser after a sequence of bytes. -/
def parseBytes (r : Receiver) (bytes : List Byte) : Receiver := bytes.foldl parseByte r

/-- The frame in the field registers (R88). -/
def receivedFrame (r : Receiver) : Frame :=
  { src := r.src, dst := r.dst, ctl := r.ctl, pkt := r.pkt, cmd := r.cmd,
    payload := Memory.readBytes r.pay 0 r.l1.toNat, crc := r.crc }

/-- The verdict at the end of a buffer (R88). -/
def parserVerdict (r : Receiver) : Verdict :=
  if r.state ≠ .done then .bad .malformed
  else if r.lenmis then .bad .lengthMismatch
  else if r.sum ≠ r.crc then .bad .checksum
  else .ok (receivedFrame r)

/-- No receive buffer is open (R19). -/
def closeBuffer (s : State) : State := { s with rx := { s.rx with state := .idle } }

/-- `RxByte(b)`: the parser takes the byte, whatever the sequencer does. -/
def doRxByte (b : Byte) (s : State) : State :=
  { s with rx := parseByte s.rx b, env := { s.env with rxStream := s.env.rxStream ++ [b] } }

/-- `RxTimeout` (R122, R127, R133): with no buffer open it ends a unicast await with NO_RESPONSE and a gather with OK or
DISCOVERY_EMPTY; otherwise it changes nothing. -/
def doRxTimeout (s : State) : State :=
  match s.rx.state, s.seq.muxState with
  | .idle, .awaitUni => concludeFailure .noResponse s
  | .idle, .awaitGather => if s.tab.devCount = 0 then complete .discoveryEmpty s else complete .ok s
  | _, _ => s

/-- `LinkError` (R89, R132): `linkerr` is set, an open buffer is discarded uncounted, and a busy block completes with
TRANSPORT_IO. -/
def doLinkError (s : State) : State :=
  let s' := closeBuffer { s with ctl := { s.ctl with linkerr := true } }
  if busy s then complete .transportIo s' else s'

end Sys2Proof.Machine
end

