-- ==== Sys2Proof/Machine/Fetch.lean ====
section
/-! DEFINITION. Where a step finds its instruction. The next scheduled event decides it (spec 00_scope R5, R6; log 1): a
CMD write carries a host operation (20_memory R35), the end of a good receive buffer a receive row (42_multiplexer R120), the
end of the settle wait a data request (R129). Every other event runs no instruction. -/

namespace Sys2Proof.Machine

/-- A host write (R32): at CMD it runs the operation of `w[3:0]` (R35, R109), elsewhere it writes the register. -/
def fetchHostWrite (off : Offset) (w : Word) (s : State) : Fetched :=
  match regAt s.params off with
  | .cmd => .run (decodeCommand w) s
  | r => .settled (writeReg w s r)

/-- A good frame runs its row; a command byte without a row is delivered in the same way (R59, R120). -/
def fetchFrame (f : Frame) (s : State) : Fetched :=
  match receivedRow f with
  | some i => .run i s
  | none => .settled (deliver f s)

/-- `RxQuiet` (R88, R89, R91, R120): it ends an open buffer, whose verdict is counted or delivered. -/
def fetchRxQuiet (s : State) : Fetched :=
  if s.rx.state = .idle then .settled s
  else match parserVerdict s.rx with
    | .bad e => .settled (countFrameError e (closeBuffer s))
    | .ok f => fetchFrame f (closeBuffer s)

/-- `SettleElapsed` (R129, R133): in SETTLE the first slot's data request is sent, or the POLL completes. -/
def fetchSettle (s : State) : Fetched :=
  match s.seq.muxState with
  | .settle =>
    match firstSlot s with
    | none => .settled (complete .ok s)
    | some (d, k) =>
      .run (.txGetData (deviceAddr s d) (slotAt s d k).type1 (slotAt s d k).type2 (slotAt s d k).index) (setCursor d k s)
  | .idle | .tx | .awaitUni | .awaitGather | .hold => .settled s

/-- One event is taken. -/
def fetchEvent (e : Event) (s : State) : Fetched :=
  match e with
  | .hostRead off => .settled (doHostRead off s)
  | .hostWrite off w => fetchHostWrite off w s
  | .reset => .settled (resetState s)
  | .blockStep => .settled (blockStep s)
  | .rxByte b => .settled (doRxByte b s)
  | .rxQuiet => fetchRxQuiet s
  | .rxTimeout => .settled (doRxTimeout s)
  | .settleElapsed => fetchSettle s
  | .linkError => .settled (doLinkError s)

/-- The schedule after its first event is taken. -/
def setInputs (es : List Event) (s : State) : State := { s with env := { s.env with inputs := es } }

/-- What the next step is (R6): the next scheduled event, or, with none left, the block's own internal step, which is
weakly fair (R119), or waiting (R148). -/
def fetch (s : State) : Fetched :=
  match s.env.inputs with
  | [] => .settled (blockStep s)
  | e :: rest => fetchEvent e (setInputs rest s)

/-- The offset of the CMD register (R31). -/
abbrev cmdOffset : Offset := 0x004

/-- A word of the opcode table put where the next step fetches (log 2, log 3): a host command is the next scheduled CMD
write; a frame has just been received whole, with no buffer open before it, and its quiet gap is the next event. -/
def placeTableWord (nbits w : Nat) (s : State) : State :=
  match tableWordBytes nbits w with
  | (.receive, bytes) =>
    setInputs (.rxQuiet :: s.env.inputs) { s with rx := parseBytes { s.rx with state := .idle } bytes }
  | (_, bytes) =>
    setInputs (.hostWrite cmdOffset (le32 (bytes.getD 0 0) (bytes.getD 1 0) (bytes.getD 2 0) (bytes.getD 3 0))
      :: s.env.inputs) s

end Sys2Proof.Machine
end

