-- ==== Sys2Proof/Safety.lean ====
section
/-! DEFINITION. What counts as a sound state and a safe step, in the terms the statements use. Each predicate gathers what
the spec says holds at all times of one part of the block. -/

namespace Sys2Proof.Machine

/-- The machine goes on: the spec lets no access and no event stop it (spec 20_memory R33, 60_exceptions R143,
40_frame_codec R89). -/
def StepGoesOn (s : State) : Prop := ∃ t, step s = .next t

/-- A byte buffer is in canonical form and within its capacity. -/
def BufferSound (m : Memory) (capacity : Nat) : Prop := Memory.wf m = true ∧ Memory.within m capacity = true

/-- The buffers are canonical and within the sizes of 10_state R18, R20, R21, R24, the lengths are within `P_REASM_MAX`,
and while the parser takes a payload it still expects 1 to `rx_L1` bytes (40_frame_codec R84). -/
structure BuffersSound (s : State) : Prop where
  txBuf : BufferSound s.tx.buf 271
  rxPay : BufferSound s.rx.pay 255
  accBuf : BufferSound s.acc.buf s.params.reasmMax
  respBuf : BufferSound s.resp.buf s.params.reasmMax
  accLen : s.acc.len.toNat ≤ s.params.reasmMax
  respLen : s.resp.len.toNat ≤ s.params.reasmMax
  payCount : s.rx.state = .pay → 1 ≤ s.rx.cnt.toNat ∧ s.rx.cnt.toNat ≤ s.rx.l1.toNat

/-- Which operation and which awaited state go with the sequencer's state (42_multiplexer R100, R101, R107 to R129). -/
def sequencerFits (q : Sequencer) : Bool :=
  match q.muxState with
  | .idle => q.curOp == .none
  | .tx =>
    match q.curOp with
    | .none => false
    | .discover => q.txNext == .awaitGather
    | .enumerate => q.txNext == .awaitUni
    | .poll => q.txNext == .awaitUni || q.txNext == .settle
  | .awaitUni => q.curOp == .enumerate || q.curOp == .poll
  | .awaitGather => q.curOp == .discover
  | .settle | .hold => q.curOp == .poll

/-- The sequencer is in a state the rules of 42_multiplexer reach: operation and state fit, an ABORT is pending only
during a transmission (R116), a running operation has not completed (R107, R142), a held result is valid (R123), and the
accumulator holds fragments only during an await (41_reassembler R93, R94). -/
structure SequencerSound (s : State) : Prop where
  fits : sequencerFits s.seq = true
  abortInTx : s.seq.abortPending = true → s.seq.muxState = .tx
  busyNotDone : busy s = true → s.ctl.done = false ∧ s.ctl.err = 0
  holdValid : hold s = true → s.resp.valid = true
  accOnlyInAwait : s.acc.valid = true →
    (s.seq.muxState = .awaitUni ∨ s.seq.muxState = .awaitGather) ∧ s.acc.pkt ≠ 0

/-- The device table is keyed by nonzero bus addresses, within `P_MAX_DEVICES`, and empty past `dev_count`
(10_state R22, 42_multiplexer R125, R126, 93 I12). -/
structure DeviceTableSound (s : State) : Prop where
  count : s.tab.devCount.toNat ≤ s.params.maxDevices
  nonzero : ∀ i, i < s.tab.devCount.toNat → deviceAddr s i ≠ 0
  keyed : ∀ i j, i < j → j < s.tab.devCount.toNat → deviceAddr s i ≠ deviceAddr s j
  empty : ∀ i, s.tab.devCount.toNat ≤ i → deviceAt s i = Device.zero

/-- The codes that `err` may hold: codes 1 to 3 never appear there and 12 to 15 are never produced (60_exceptions
R134). -/
def legalErr (c : BitVec 4) : Bool := c == 0 || decide (4 ≤ c.toNat ∧ c.toNat ≤ 11)

/-- The codes that `resp_code` may hold: the results of a unicast transaction (60_exceptions R134). -/
def legalRespCode (c : BitVec 4) : Bool := c == 0 || c == 4 || c == 5 || c == 8

/-- The code registers hold only codes the spec lists for them (60_exceptions R134, 93 I8). -/
structure CodesLegal (s : State) : Prop where
  err : legalErr s.ctl.err = true
  respCode : legalRespCode s.resp.code = true
  lastFrameErr : s.cnt.lastFrameErr.toNat ≤ 3

/-- The bytes of the frame being transmitted. -/
def txFrame (s : State) : List Byte := Memory.readBytes s.tx.buf 0 s.tx.len.toNat

/-- While a frame is transmitted it is one of the request frames, so its command byte is 6, 9, 10 or 11 (00_scope R4,
42_multiplexer R102), some of it is still to be sent, and what was sent of it ends the transmit stream (R119). -/
structure TransmissionSound (s : State) : Prop where
  request : s.seq.muxState = .tx → ∃ i, encode i = (.transmit, txFrame s)
  unfinished : s.seq.muxState = .tx → s.tx.idx.toNat < s.tx.len.toNat
  sent : s.seq.muxState = .tx → ∃ before, s.env.txStream = before ++ (txFrame s).take s.tx.idx.toNat

/-- The operands of a running operation name a discovered device (42_multiplexer R113, R115, R128, R129). -/
structure CursorSound (s : State) : Prop where
  enumerate : s.seq.curOp = .enumerate → s.seq.enumD.toNat < s.tab.devCount.toNat
  poll : s.seq.curOp = .poll → s.seq.txNext = .awaitUni → s.seq.pollD.toNat < s.tab.devCount.toNat

/-- A reset in the step about to be taken: the reset input, or RESET written to CMD (42_multiplexer R117,
70_reset_and_hazards R149). -/
def stepResets (s : State) : Bool :=
  match s.env.inputs with
  | .reset :: _ => true
  | .hostWrite off w :: _ => regAt s.params off == .cmd && decodeCommand w == .reset
  | _ => false

/-- DISCOVER accepted in the step about to be taken (42_multiplexer R112). -/
def stepDiscovers (s : State) : Bool :=
  match s.env.inputs with
  | .hostWrite off w :: _ => regAt s.params off == .cmd && decodeCommand w == .discover && !busy s
  | _ => false

/-! ### Terms the statements share -/

/-- The nine reserved operations (42_multiplexer R118). -/
def reservedRows : List Instr :=
  [.reserved6, .reserved7, .reserved8, .reserved9, .reservedA, .reservedB, .reservedC, .reservedD, .reservedE]

/-- The five receive rows of the opcode table with their command bytes (30_encoding R59). -/
def receiveRows : List ((RxFields → Instr) × Byte) :=
  [(.rxGetNetStart, 6), (.rxGetCinfo, 9), (.rxGetData, 11), (.cmdSetData, 12), (.cmdPdelimit, 40)]

/-- `t` is `s` with the transmission of `bytes` started and everything else as it was (42_multiplexer R102): the bytes of
`tx_buf` past the frame too. -/
structure StartsFrame (bytes : List Byte) (next : TxNext) (s t : State) : Prop where
  seq : t.seq = { s.seq with muxState := .tx, txNext := next }
  idx : t.tx.idx = 0
  len : t.tx.len.toNat = bytes.length
  frame : txFrame t = bytes
  rest : ∀ a, bytes.length ≤ a → Memory.read t.tx.buf a = Memory.read s.tx.buf a
  params : t.params = s.params
  rx : t.rx = s.rx
  acc : t.acc = s.acc
  tab : t.tab = s.tab
  resp : t.resp = s.resp
  ctl : t.ctl = s.ctl
  cnt : t.cnt = s.cnt
  env : t.env = s.env

/-- `(d, k)` is a requested slot of a discovered device (42_multiplexer R128). -/
def requestedSlot (s : State) (d k : Nat) : Prop :=
  d < s.tab.devCount.toNat ∧ k < 8 ∧ (slotAt s d k).valid = true

/-- The lexicographic order of slots, strict (42_multiplexer R128). -/
def slotBefore (d k d' k' : Nat) : Prop := d < d' ∨ (d = d' ∧ k < k')

/-- `ReasmStep` on each of some frames in turn (41_reassembler R94): the accumulator after the last and the results in
order. -/
def reasmAll (capacity : Nat) : Accumulator → List Frame → Accumulator × List ReasmResult
  | a, [] => (a, [])
  | a, f :: fs =>
    let (a', r) := reasmStep capacity f a
    let (a'', rs) := reasmAll capacity a' fs
    (a'', r :: rs)

/-- The response registers hold the response `r` of the transaction of device `dev`, slot `slot` (42_multiplexer R123);
buffer bytes past the payload are those of `before`. -/
structure HoldsResponse (r : Response) (dev : BitVec 4) (slot : BitVec 3) (before after : ResponseRegs) : Prop where
  valid : after.valid = true
  code : after.code = 0
  dev : after.dev = dev
  slot : after.slot = slot
  src : after.src = r.src
  dst : after.dst = r.dst
  ctl : after.ctl = r.ctl
  cmd : after.cmd = r.cmd
  len : after.len.toNat = r.payload.length
  payload : Memory.readBytes after.buf 0 r.payload.length = r.payload
  rest : ∀ a, r.payload.length ≤ a → Memory.read after.buf a = Memory.read before.buf a

/-- The payload an accumulator has gathered so far: none while it is empty (41_reassembler R93, R94). -/
def accPayload (a : Accumulator) : List Byte := if a.valid then Memory.readBytes a.buf 0 a.len.toNat else []

/-- The accumulator takes the frame with command byte `cmd` and fields `f` as a fragment: as the first one, or as a further
one with the same header that fits (41_reassembler R94). -/
def TakesFragment (capacity : Nat) (cmd : Byte) (f : RxFields) (a : Accumulator) : Prop :=
  a.valid = true → f.src = a.src ∧ f.dst = a.dst ∧ f.ctl = a.ctl ∧ cmd = a.cmd ∧
    a.len.toNat + f.payload.length ≤ capacity

/-- The response that the fragment `f` completes: its header, and the payload so far followed by its own (41_reassembler
R94). -/
def joinedResponse (cmd : Byte) (f : RxFields) (a : Accumulator) : Response :=
  { src := f.src, dst := f.dst, ctl := f.ctl, cmd := cmd, payload := accPayload a ++ f.payload }

end Sys2Proof.Machine
end

