-- ==== Sys2Proof/Certificates/Slice0/Obligations.lean ====
section
/-! DEFINITION. The statements for the provers, from the numbered rules of the spec: encodings, the receive parser, the
step, the host registers, each instruction's effect and frame, the link events, and the invariants every step keeps. -/

open Sys2Proof Sys2Proof.Machine

/-! ### Encodings -/

/-- R52, R61, R62, R66, R72, R103 to R106: decoding an encoded well-formed instruction gives it back, operands and
all. The encoder's choice among the forms of one instruction is the model's (log 15). -/
def Obligations.DecodeInvertsEncode : Prop :=
  ∀ i : Instr, WellFormed i = true → decode (encode i).1 (encode i).2 = .instr i

/-- R52, R54, R102 to R106: bytes that decode at the transmit side to an instruction are the bytes it is encoded as. -/
def Obligations.EncodeInvertsTransmitDecode : Prop :=
  ∀ (bytes : List Byte) (i : Instr), decode .transmit bytes = .instr i → encode i = (.transmit, bytes)

/-- R68: an encoded frame has both length bytes equal to the payload length, is `16 + L` bytes long and decodes to its
operands with source address 0. -/
def Obligations.EncodedFrameDecodesToItsOperands : Prop :=
  ∀ (dst : Half) (pkt cmd ctl : Byte) (payload : List Byte), payload.length ≤ 255 →
    (encodeFrame dst pkt cmd ctl payload).getD 3 0 = BitVec.ofNat 8 payload.length ∧
    (encodeFrame dst pkt cmd ctl payload).getD 4 0 = BitVec.ofNat 8 payload.length ∧
    (encodeFrame dst pkt cmd ctl payload).length = 16 + payload.length ∧
    decodeFrame (encodeFrame dst pkt cmd ctl payload) =
      .ok { src := 0, dst := dst, ctl := ctl, pkt := pkt, cmd := cmd, payload := payload,
            crc := checksum (headerBytes 0 dst ctl pkt cmd ++ payload) }

/-- R52, R54, R72, R73: the buffers with an `Ok` verdict are exactly the frames of the layout, with or without the two wake
bytes. -/
def Obligations.GoodBuffersAreTheFrameLayout : Prop :=
  ∀ (buf : List Byte) (f : Frame), decodeFrame buf = .ok f ↔
    f.payload.length ≤ 255 ∧
    f.crc = checksum (headerBytes f.src f.dst f.ctl f.pkt f.cmd ++ f.payload) ∧
    (buf = frameBytes f.src f.dst f.ctl f.pkt f.cmd f.payload ∨
      buf = (frameBytes f.src f.dst f.ctl f.pkt f.cmd f.payload).drop 2)

/-- R69: the checksum is the unsigned sum of the bytes modulo 65536, stored low byte first; the sum of no byte is 0, the
largest sum of a frame reduces to 0x04FA, S1's header sums to 0x88. -/
def Obligations.ChecksumIsTheByteSumMod65536 : Prop :=
  (∀ bytes : List Byte, (checksum bytes).toNat = (bytes.map BitVec.toNat).sum % 65536) ∧
  (∀ crc : Half, (trailerBytes crc).getD 0 0 = lo8 crc ∧ (trailerBytes crc).getD 1 0 = hi8 crc) ∧
  checksum [] = 0 ∧ checksum (List.replicate 262 0xFF) = 0x04FA ∧
  checksum [0x00, 0x00, 0x02, 0x00, 0x80, 0x00, 0x06] = 0x0088

/-- R61, R62, R63: the host command word selects its operation by bits [3:0] alone, by the codes of R62. -/
def Obligations.CommandWordSelectsByItsLowNibble : Prop :=
  (∀ w : Word, decode .hostCommand (le32Bytes w) = .instr (decodeCommand (w &&& 0xF))) ∧
  [0x0, 0x1, 0x2, 0x3, 0x4, 0x5, 0x6, 0x7, 0x8, 0x9, 0xA, 0xB, 0xC, 0xD, 0xE, 0xF].map decodeCommand =
    [.nop, .discover, .enumerate, .poll, .continuePoll, .abort, .reserved6, .reserved7, .reserved8, .reserved9,
     .reservedA, .reservedB, .reservedC, .reservedD, .reservedE, .reset]

/-- R62, R103 to R106, 95 V1, V2 and V6: words and frames written out from the spec decode to the instructions they stand
for, and the requests are encoded as the spec writes them, byte for byte. -/
def Obligations.WrittenOutBytesAreTheEncodings : Prop :=
  decode .hostCommand [0x13, 0x00, 0x00, 0x00] = .instr .poll ∧
  decode .transmit [0xAA, 0xAA, 0x68, 0x00, 0x00, 0x68, 0x00, 0x00, 0x00, 0x00, 0x80, 0x00, 0x06, 0x86, 0x00, 0x16] =
    .instr .txGetNetStart ∧
  decode .transmit [0xAA, 0xAA, 0x68, 0x03, 0x03, 0x68, 0x00, 0x00, 0x34, 0x12, 0x00, 0x00, 0x0B, 0x01, 0x10, 0x03,
      0x65, 0x00, 0x16] = .instr (.txGetData 0x1234 0x01 0x10 0x03) ∧
  decode .receive [0x68, 0x02, 0x02, 0x68, 0x34, 0x12, 0x00, 0x00, 0x40, 0x00, 0x09, 0xAA, 0xBB, 0xF4, 0x01, 0x16] =
    .instr (.rxGetCinfo { src := 0x1234, dst := 0, ctl := 0x40, pkt := 0, payload := [0xAA, 0xBB] }) ∧
  decode .receive [0xAA, 0xAA, 0x68, 0x00, 0x00, 0x68, 0x42, 0x00, 0x00, 0x00, 0x40, 0x00, 0x06, 0x88, 0x00, 0x16] =
    .instr (.rxGetNetStart { src := 0x0042, dst := 0, ctl := 0x40, pkt := 0, payload := [] }) ∧
  (encode .txGetNetStart).2 =
    [0xAA, 0xAA, 0x68, 0x00, 0x00, 0x68, 0x00, 0x00, 0x00, 0x00, 0x80, 0x00, 0x06, 0x86, 0x00, 0x16] ∧
  (encode (.txGetCinfo 0x1234)).2 =
    [0xAA, 0xAA, 0x68, 0x00, 0x00, 0x68, 0x00, 0x00, 0x34, 0x12, 0x00, 0x00, 0x09, 0x4F, 0x00, 0x16] ∧
  (encode (.txSynOnline 0x6553F128)).2 =
    [0xAA, 0xAA, 0x68, 0x04, 0x04, 0x68, 0x00, 0x00, 0x00, 0x00, 0x80, 0x00, 0x0A, 0x28, 0xF1, 0x53, 0x65, 0x5B, 0x02,
     0x16] ∧
  (encode (.txGetData 0x1234 0x01 0x10 0x03)).2 =
    [0xAA, 0xAA, 0x68, 0x03, 0x03, 0x68, 0x00, 0x00, 0x34, 0x12, 0x00, 0x00, 0x0B, 0x01, 0x10, 0x03, 0x65, 0x00, 0x16]

/-! ### The receive parser -/

/-- R90: the byte-serial parser gives, over any buffer, the verdict of `Decode`, whatever an earlier buffer left in its field
registers. -/
def Obligations.ParserGivesTheDecodersVerdict : Prop :=
  ∀ (r : Receiver) (buf : List Byte), r.state = .idle → Memory.wf r.pay = true → buf ≠ [] →
    parserVerdict (parseBytes r buf) = decodeFrame buf

/-- R5, R76, R88, R90, R120: a received byte, in any state, goes to the parser and to the recorded stream (log 9) and changes
nothing else. A buffer that decodes to a receive row, taken byte by byte from an idle parser, is followed at the quiet gap
by a step that runs that row, with the parser closed. -/
def Obligations.ReceivedBufferRunsItsRow : Prop :=
  (∀ (s : State) (b : Byte) (rest : List Event), s.env.inputs = .rxByte b :: rest →
    step s = .next { s with
      rx := parseByte s.rx b
      env := { s.env with inputs := rest, rxStream := s.env.rxStream ++ [b] } }) ∧
  ∀ (s : State) (buf : List Byte) (rest : List Event) (i : Instr),
    s.env.inputs = buf.map .rxByte ++ .rxQuiet :: rest → s.rx.state = .idle → Memory.wf s.rx.pay = true →
    buf ≠ [] → decode .receive buf = .instr i →
    ∃ t, Sys2Proof.core.run buf.length s = .next t ∧
      step t = exec i { s with
        rx := { parseBytes s.rx buf with state := .idle }
        env := { s.env with inputs := rest, rxStream := s.env.rxStream ++ buf } }

/-- R91, R136: an error verdict is counted in its own counter, its code is kept in `last_frame_err`, the parser is closed,
and nothing else changes, in any state of the sequencer. -/
def Obligations.BadBufferIsCountedAndDropped : Prop :=
  ∀ (s : State) (rest : List Event), s.env.inputs = .rxQuiet :: rest → s.rx.state ≠ .idle →
    (parserVerdict s.rx = .bad .malformed → step s = .next { s with
      rx := { s.rx with state := .idle }
      cnt := { s.cnt with mal := s.cnt.mal + 1, lastFrameErr := 1 }
      env := { s.env with inputs := rest } }) ∧
    (parserVerdict s.rx = .bad .lengthMismatch → step s = .next { s with
      rx := { s.rx with state := .idle }
      cnt := { s.cnt with len := s.cnt.len + 1, lastFrameErr := 2 }
      env := { s.env with inputs := rest } }) ∧
    (parserVerdict s.rx = .bad .checksum → step s = .next { s with
      rx := { s.rx with state := .idle }
      cnt := { s.cnt with csum := s.cnt.csum + 1, lastFrameErr := 3 }
      env := { s.env with inputs := rest } })

/-! ### The step -/

/-- R35, R59, R61, R88, R109, R120: a step whose event is a CMD write runs the operation the word decodes to, with the event
taken; a step whose event ends a good buffer runs the receive row of its frame, with the parser closed; a command byte
without a row is delivered. -/
def Obligations.StepRunsTheDecodedInstruction : Prop :=
  (∀ (s : State) (off : Offset) (w : Word) (rest : List Event) (i : Instr),
    s.env.inputs = .hostWrite off w :: rest → regAt s.params off = .cmd →
    decode .hostCommand (le32Bytes w) = .instr i →
    step s = exec i { s with env := { s.env with inputs := rest } }) ∧
  (∀ (s : State) (rest : List Event) (f : Frame), s.env.inputs = .rxQuiet :: rest → s.rx.state ≠ .idle →
    parserVerdict s.rx = .ok f →
    (∀ i, receivedRow f = some i →
      step s = exec i { s with rx := { s.rx with state := .idle }, env := { s.env with inputs := rest } }) ∧
    (receivedRow f = none →
      step s = .next (deliver f { s with rx := { s.rx with state := .idle }, env := { s.env with inputs := rest } })))

/-- R129: at the end of the settle wait a step runs the data request of the first slot, with the cursor on it, or completes
the POLL with OK. -/
def Obligations.SettleElapsedStartsTheFirstSlot : Prop :=
  ∀ (s : State) (rest : List Event), s.env.inputs = .settleElapsed :: rest → s.seq.muxState = .settle →
    (firstSlot s = none → step s = .next { s with
      seq := { s.seq with muxState := .idle, curOp := .none, abortPending := false }
      acc := { s.acc with valid := false }
      ctl := { s.ctl with done := true, err := 0 }
      env := { s.env with inputs := rest } }) ∧
    (∀ d k, firstSlot s = some (d, k) →
      step s = exec (.txGetData (deviceAddr s d) (slotAt s d k).type1 (slotAt s d k).type2 (slotAt s d k).index)
        { s with
          seq := { s.seq with pollD := BitVec.ofNat 5 d, pollK := BitVec.ofNat 3 k }
          env := { s.env with inputs := rest } })

/-- R32, R33, R89, R133, R143: no access and no event stops the machine: every step of every state answers a next state. -/
def Obligations.EveryStepGoesOn : Prop := ∀ s : State, StepGoesOn s

/-! ### Host registers -/

/-- R31, R32: the offsets of the register map, the low two offset bits ignored, and the holes. -/
def Obligations.OffsetsSelectTheRegisters : Prop :=
  ∀ p : Params,
    (∀ off : Offset, regAt p off = regAt p (off &&& 0x1FFC)) ∧
    [0x000, 0x004, 0x008, 0x00C, 0x010, 0x014, 0x018, 0x01C, 0x020, 0x024, 0x028, 0x02C, 0x030, 0x034, 0x038, 0x03C,
      0x040].map (regAt p) =
      [.ctrl, .cmd, .status, .arg, .devCount, .cntMal, .cntLen, .cntCsum, .cntUnsol, .cntFrag, .lastFrameErr, .unmapped,
       .respStatus, .respSrc, .respDst, .respCtlCmd, .respLen] ∧
    (∀ a : Nat, (0x044 ≤ a ∧ a < 0x100) ∨ (0x400 ≤ a ∧ a < 0x1000) → regAt p (BitVec.ofNat 13 a) = .unmapped) ∧
    (∀ i < 16, i < p.maxDevices →
      regAt p (BitVec.ofNat 13 (0x100 + 16 * i)) = .devAddr i ∧
      regAt p (BitVec.ofNat 13 (0x104 + 16 * i)) = .devSerial i ∧
      regAt p (BitVec.ofNat 13 (0x108 + 16 * i)) = .devTypeLo i ∧
      regAt p (BitVec.ofNat 13 (0x10C + 16 * i)) = .devTypeHi i) ∧
    (∀ i < 16, p.maxDevices ≤ i → ∀ j < 4, regAt p (BitVec.ofNat 13 (0x100 + 16 * i + 4 * j)) = .unmapped) ∧
    (∀ i < 16, ∀ k < 8, regAt p (BitVec.ofNat 13 (0x200 + 32 * i + 4 * k)) =
      if i < p.maxDevices then .crt i k else .unmapped) ∧
    (∀ m < 1024, regAt p (BitVec.ofNat 13 (0x1000 + 4 * m)) =
      if 4 * m < p.reasmMax then .respBuf m else .unmapped)

/-- R32: a host read shows the register's value on the port and changes no state of the block. The recorded value is
the model's own field (log 9). -/
def Obligations.HostReadChangesNoState : Prop :=
  ∀ (s : State) (off : Offset) (rest : List Event), s.env.inputs = .hostRead off :: rest →
    step s = .next { s with env := { s.env with inputs := rest, readData := readReg s (regAt s.params off) } }

/-- R31, R33, R35: CMD and an unmapped offset read 0, and a write to an unmapped offset or to a read-only register changes
no state. -/
def Obligations.UnmappedAndReadOnlyAreInert : Prop :=
  ∀ (s : State) (off : Offset),
    (regAt s.params off = .unmapped ∨ regAt s.params off = .cmd → hostRead s off = 0) ∧
    ∀ (w : Word) (rest : List Event), s.env.inputs = .hostWrite off w :: rest →
      regAt s.params off ≠ .ctrl → regAt s.params off ≠ .cmd → regAt s.params off ≠ .status →
      regAt s.params off ≠ .arg → (∀ i k, regAt s.params off ≠ .crt i k) →
      step s = .next { s with env := { s.env with inputs := rest } }

/-- R36: the STATUS fields, the reserved bits, and the write-1-to-clear bits, which are accepted while busy too and change
nothing else. -/
def Obligations.StatusFieldsAndClears : Prop :=
  (∀ (s : State) (off : Offset), regAt s.params off = .status →
    (hostRead s off).getLsbD 0 = (s.seq.muxState != .idle) ∧ (hostRead s off).getLsbD 1 = s.ctl.done ∧
    (hostRead s off).getLsbD 2 = (s.seq.muxState == .hold) ∧ (hostRead s off).getLsbD 3 = s.ctl.devovf ∧
    (hostRead s off).getLsbD 4 = s.ctl.linkerr ∧ (hostRead s off).getLsbD 5 = s.ctl.cmderr ∧
    (hostRead s off).extractLsb' 6 2 = 0 ∧ (hostRead s off).extractLsb' 8 4 = s.ctl.err ∧
    (hostRead s off).extractLsb' 12 20 = 0) ∧
  (∀ (s : State) (off : Offset) (w : Word) (rest : List Event), s.env.inputs = .hostWrite off w :: rest →
    regAt s.params off = .status →
    step s = .next { s with
      ctl := { s.ctl with
        done := if w.getLsbD 1 then false else s.ctl.done
        devovf := if w.getLsbD 3 then false else s.ctl.devovf
        linkerr := if w.getLsbD 4 then false else s.ctl.linkerr
        cmderr := if w.getLsbD 5 then false else s.ctl.cmderr }
      env := { s.env with inputs := rest } })

/-- R34: CTRL reads `zext_32(ie)` and a write sets `ie` to its bit 0, at any time, and changes nothing else. -/
def Obligations.CtrlHoldsTheInterruptEnable : Prop :=
  ∀ (s : State) (off : Offset), regAt s.params off = .ctrl →
    hostRead s off = (if s.ctl.ie then 1 else 0) ∧
    ∀ (w : Word) (rest : List Event), s.env.inputs = .hostWrite off w :: rest →
      step s = .next { s with ctl := { s.ctl with ie := w.getLsbD 0 }, env := { s.env with inputs := rest } }

/-- R37: ARG reads `arg`; a write sets it when idle and changes no state when busy. -/
def Obligations.ArgIsWrittenWhenIdle : Prop :=
  ∀ (s : State) (off : Offset), regAt s.params off = .arg →
    hostRead s off = s.ctl.arg ∧
    ∀ (w : Word) (rest : List Event), s.env.inputs = .hostWrite off w :: rest →
      (s.seq.muxState = .idle →
        step s = .next { s with ctl := { s.ctl with arg := w }, env := { s.env with inputs := rest } }) ∧
      (s.seq.muxState ≠ .idle → step s = .next { s with env := { s.env with inputs := rest } })

/-- R42: a CRT read gives the slot's fields; a write when idle sets them, leaves every other slot and everything else
alone, and when busy changes no state. -/
def Obligations.ChannelRequestRegisters : Prop :=
  ∀ (s : State) (off : Offset) (i k : Nat), regAt s.params off = .crt i k →
    ((hostRead s off).extractLsb' 0 8 = (slotAt s i k).index ∧ (hostRead s off).extractLsb' 8 8 = (slotAt s i k).type1 ∧
      (hostRead s off).extractLsb' 16 8 = (slotAt s i k).type2 ∧ (hostRead s off).extractLsb' 24 7 = 0 ∧
      (hostRead s off).getLsbD 31 = (slotAt s i k).valid) ∧
    ∀ (w : Word) (rest : List Event), s.env.inputs = .hostWrite off w :: rest →
      (s.seq.muxState = .idle → ∃ t, step s = .next t ∧
        slotAt t i k = { valid := w.getLsbD 31, type1 := w.extractLsb' 8 8, type2 := w.extractLsb' 16 8,
                         index := w.extractLsb' 0 8 } ∧
        (∀ i' k', (i', k') ≠ (i, k) → slotAt t i' k' = slotAt s i' k') ∧
        t = { s with tab := { s.tab with crt := t.tab.crt }, env := { s.env with inputs := rest } }) ∧
      (s.seq.muxState ≠ .idle → step s = .next { s with env := { s.env with inputs := rest } })

/-- R43: byte `j` of the response window is `resp_buf[j]` below `resp_len` and 0x00 from there on, the first byte in the
lowest bits of its word. -/
def Obligations.ResponseWindowPacksTheResponse : Prop :=
  ∀ (s : State) (j : Nat), 4 * (j / 4) < s.params.reasmMax →
    (hostRead s (BitVec.ofNat 13 (0x1000 + 4 * (j / 4)))).extractLsb' (8 * (j % 4)) 8 =
      if j < s.resp.len.toNat then Memory.read s.resp.buf j else 0x00

/-- R40: the fields of the response registers; every other bit reads 0. -/
def Obligations.ResponseRegistersReadTheirFields : Prop :=
  ∀ (s : State) (off : Offset),
    (regAt s.params off = .respStatus →
      (hostRead s off).extractLsb' 0 4 = s.resp.code ∧ (hostRead s off).extractLsb' 4 4 = 0 ∧
      (hostRead s off).extractLsb' 8 4 = s.resp.dev ∧ (hostRead s off).extractLsb' 12 4 = 0 ∧
      (hostRead s off).extractLsb' 16 3 = s.resp.slot ∧ (hostRead s off).extractLsb' 19 12 = 0 ∧
      (hostRead s off).getLsbD 31 = s.resp.valid) ∧
    (regAt s.params off = .respSrc → (hostRead s off).toNat = s.resp.src.toNat) ∧
    (regAt s.params off = .respDst → (hostRead s off).toNat = s.resp.dst.toNat) ∧
    (regAt s.params off = .respCtlCmd → (hostRead s off).toNat = s.resp.ctl.toNat + 256 * s.resp.cmd.toNat) ∧
    (regAt s.params off = .respLen → (hostRead s off).toNat = s.resp.len.toNat)

/-- R38, R39, R41: the device count, the counters, the last frame error and the device window read their state elements. -/
def Obligations.TableAndCounterRegistersRead : Prop :=
  ∀ (s : State) (off : Offset),
    (regAt s.params off = .devCount → (hostRead s off).toNat = s.tab.devCount.toNat) ∧
    (regAt s.params off = .cntMal → (hostRead s off).toNat = s.cnt.mal.toNat) ∧
    (regAt s.params off = .cntLen → (hostRead s off).toNat = s.cnt.len.toNat) ∧
    (regAt s.params off = .cntCsum → (hostRead s off).toNat = s.cnt.csum.toNat) ∧
    (regAt s.params off = .cntUnsol → (hostRead s off).toNat = s.cnt.unsol.toNat) ∧
    (regAt s.params off = .cntFrag → (hostRead s off).toNat = s.cnt.frag.toNat) ∧
    (regAt s.params off = .lastFrameErr → (hostRead s off).toNat = s.cnt.lastFrameErr.toNat) ∧
    ∀ i, (regAt s.params off = .devAddr i → (hostRead s off).toNat = (deviceAt s i).addr.toNat) ∧
      (regAt s.params off = .devSerial i → hostRead s off = (deviceAt s i).serial) ∧
      (regAt s.params off = .devTypeLo i → ∀ j (h : j < 4),
        (hostRead s off).extractLsb' (8 * j) 8 = (deviceAt s i).tag[j]) ∧
      (regAt s.params off = .devTypeHi i → ∀ j (h : j < 4),
        (hostRead s off).extractLsb' (8 * j) 8 = (deviceAt s i).tag[4 + j])

/-! ### Host operations -/

/-- R111: NOP changes no state, in any state. -/
def Obligations.NopChangesNoState : Prop := ∀ s : State, exec .nop s = .next s

/-- R112: DISCOVER in IDLE empties the device table, clears every `valid` bit and `devovf`, acknowledges the last
completion and starts the discovery request; nothing else changes. Bytes of `tx_buf` past the frame stay (log 12), and
entries past P_MAX_DEVICES are cleared too (log 8). -/
def Obligations.DiscoverStartsTheGather : Prop :=
  ∀ s : State, s.seq.muxState = .idle → Memory.wf s.tx.buf = true →
    ∃ u t, exec .discover s = .next t ∧ StartsFrame netStartRequest .awaitGather u t ∧
      u.tab.devCount = 0 ∧ (∀ i, deviceAt u i = Device.zero) ∧
      (∀ i k, slotAt u i k = { slotAt s i k with valid := false }) ∧
      u = { s with
        seq := { s.seq with curOp := .discover }
        tab := u.tab
        resp := { s.resp with valid := false }
        ctl := { s.ctl with done := false, err := 0, devovf := false } }

/-- R113: ENUMERATE in IDLE starts the channel enumeration request of the device `ARG[7:0]`, or completes with
BAD_DEVICE when there is no such device; nothing else changes. Bytes of `tx_buf` past the frame stay (log 12). -/
def Obligations.EnumerateRequestsOrRejects : Prop :=
  ∀ s : State, s.seq.muxState = .idle → Memory.wf s.tx.buf = true →
    (s.ctl.arg.toNat % 256 < s.tab.devCount.toNat →
      ∃ t, exec .enumerate s = .next t ∧
        StartsFrame (cinfoRequest (deviceAddr s (s.ctl.arg.toNat % 256))) .awaitUni
          { s with
            seq := { s.seq with curOp := .enumerate, enumD := BitVec.ofNat 4 (s.ctl.arg.toNat % 256) }
            resp := { s.resp with valid := false }
            ctl := { s.ctl with done := false, err := 0 } } t) ∧
    (s.tab.devCount.toNat ≤ s.ctl.arg.toNat % 256 →
      exec .enumerate s = .next { s with
        seq := { s.seq with muxState := .idle, curOp := .none, abortPending := false }
        acc := { s.acc with valid := false }
        resp := { s.resp with valid := false }
        ctl := { s.ctl with done := true, err := 10 } })

/-- R114: POLL in IDLE latches the poll time, returns the cursor to the start and starts the synchronisation request;
nothing else changes. Bytes of `tx_buf` past the frame stay (log 12). -/
def Obligations.PollBroadcastsItsTime : Prop :=
  ∀ s : State, s.seq.muxState = .idle → Memory.wf s.tx.buf = true →
    ∃ t, exec .poll s = .next t ∧
      StartsFrame (encodeFrame 0 0 10 128 (le32Bytes s.ctl.arg)) .settle
        { s with
          seq := { s.seq with curOp := .poll, pollT := s.ctl.arg, pollD := 0, pollK := 0 }
          resp := { s.resp with valid := false }
          ctl := { s.ctl with done := false, err := 0 } } t

/-- R115, R109: CONTINUE in HOLD releases the result and runs the data request of the next slot, with the cursor on
it, or completes the POLL with OK. In IDLE it completes with BAD_OP, elsewhere it is refused. Bytes of `tx_buf` past
the frame stay (log 12). -/
def Obligations.ContinueReleasesTheHeldResult : Prop :=
  ∀ s : State,
    (s.seq.muxState = .hold → nextSlot s s.seq.pollD.toNat s.seq.pollK.toNat = none →
      exec .continuePoll s = .next { s with
        seq := { s.seq with muxState := .idle, curOp := .none, abortPending := false }
        acc := { s.acc with valid := false }
        resp := { s.resp with valid := false }
        ctl := { s.ctl with done := true, err := 0 } }) ∧
    (∀ d k, s.seq.muxState = .hold → nextSlot s s.seq.pollD.toNat s.seq.pollK.toNat = some (d, k) →
      Memory.wf s.tx.buf = true →
      ∃ t, exec .continuePoll s = .next t ∧
        StartsFrame (dataRequest (deviceAddr s d) (slotAt s d k).type1 (slotAt s d k).type2 (slotAt s d k).index)
          .awaitUni
          { s with
            seq := { s.seq with pollD := BitVec.ofNat 5 d, pollK := BitVec.ofNat 3 k }
            resp := { s.resp with valid := false } } t) ∧
    (s.seq.muxState = .idle →
      exec .continuePoll s = .next { s with
        seq := { s.seq with muxState := .idle, curOp := .none, abortPending := false }
        acc := { s.acc with valid := false }
        resp := { s.resp with valid := false }
        ctl := { s.ctl with done := true, err := 9 } }) ∧
    (s.seq.muxState ≠ .hold → s.seq.muxState ≠ .idle →
      exec .continuePoll s = .next { s with ctl := { s.ctl with cmderr := true } })

/-- R116: ABORT is deferred in TX, completes ABORTED at once in the other busy states and has no effect in IDLE; a held
result stays. -/
def Obligations.AbortEndsOrIsDeferred : Prop :=
  ∀ s : State,
    (s.seq.muxState = .tx → exec .abort s = .next { s with seq := { s.seq with abortPending := true } }) ∧
    (s.seq.muxState = .awaitUni ∨ s.seq.muxState = .awaitGather ∨ s.seq.muxState = .settle ∨ s.seq.muxState = .hold →
      exec .abort s = .next { s with
        seq := { s.seq with muxState := .idle, curOp := .none, abortPending := false }
        acc := { s.acc with valid := false }
        ctl := { s.ctl with done := true, err := 11 } }) ∧
    (s.seq.muxState = .idle → exec .abort s = .next s)

/-- R29, R117, R149: RESET, in any state, and the reset input give every state element its reset value in one step and emit
no byte. That the schedule, the recorded streams and the parameters stay is the model's choice (log 6, log 9). -/
def Obligations.ResetRestoresEveryElement : Prop :=
  (∀ s : State, exec .reset s = .next { State.reset with params := s.params, env := s.env }) ∧
  (∀ (s : State) (rest : List Event), s.env.inputs = .reset :: rest →
    step s = .next { State.reset with params := s.params, env := { s.env with inputs := rest } })

/-- R118: a reserved operation completes with BAD_OP in IDLE: nothing is transmitted and no table changes. -/
def Obligations.ReservedOperationIsBadOp : Prop :=
  ∀ i ∈ reservedRows, ∀ s : State, s.seq.muxState = .idle →
    exec i s = .next { s with
      seq := { s.seq with muxState := .idle, curOp := .none, abortPending := false }
      acc := { s.acc with valid := false }
      resp := { s.resp with valid := false }
      ctl := { s.ctl with done := true, err := 9 } }

/-- R109, R110: a busy block refuses DISCOVER, ENUMERATE, POLL and the reserved operations: `cmderr` is set and nothing
else changes. -/
def Obligations.BusyBlockRefusesCommands : Prop :=
  ∀ i ∈ [Instr.discover, Instr.enumerate, Instr.poll] ++ reservedRows, ∀ s : State, s.seq.muxState ≠ .idle →
    exec i s = .next { s with ctl := { s.ctl with cmderr := true } }

/-! ### Transmission -/

/-- R101, R102 to R106: each transmit row starts the transmission of its encoded frame, with the state its transaction
awaits next, and changes nothing else. That such a row is StartTx of its frame, in any state, is the model's reading
(log 4); bytes of `tx_buf` past the frame stay (log 12). -/
def Obligations.RequestRowsStartTheirFrames : Prop :=
  ∀ s : State, Memory.wf s.tx.buf = true →
    (∃ t, exec .txGetNetStart s = .next t ∧ StartsFrame (encode .txGetNetStart).2 .awaitGather s t) ∧
    (∀ dst, ∃ t, exec (.txGetCinfo dst) s = .next t ∧ StartsFrame (encode (.txGetCinfo dst)).2 .awaitUni s t) ∧
    (∀ time, ∃ t, exec (.txSynOnline time) s = .next t ∧ StartsFrame (encode (.txSynOnline time)).2 .settle s t) ∧
    (∀ dst type1 type2 index, ∃ t, exec (.txGetData dst type1 type2 index) s = .next t ∧
      StartsFrame (encode (.txGetData dst type1 type2 index)).2 .awaitUni s t)

/-- R6, R119, R148: the block's step sends the byte at `tx_idx`; after the last byte it completes ABORTED if an ABORT is
pending, else enters `tx_next`, emptying the accumulator when it awaits. Outside TX it changes nothing. So it is for the
step scheduled between other events and, by the model's choice (log 1), for the step of an empty schedule. -/
def Obligations.BlockStepSendsOneByte : Prop :=
  ∀ (s : State) (rest : List Event),
    (s.env.inputs = [] ∧ rest = []) ∨ s.env.inputs = .blockStep :: rest →
    (s.seq.muxState ≠ .tx → step s = .next { s with env := { s.env with inputs := rest } }) ∧
    (s.seq.muxState = .tx → ∃ t, step s = .next t ∧
      t.env = { s.env with
        inputs := rest
        txStream := s.env.txStream ++ [Memory.read s.tx.buf s.tx.idx.toNat] } ∧
      t.tx = { s.tx with idx := s.tx.idx + 1 } ∧
      t.params = s.params ∧ t.rx = s.rx ∧ t.tab = s.tab ∧ t.resp = s.resp ∧ t.cnt = s.cnt ∧
      (s.tx.idx + 1 ≠ s.tx.len → t.seq = s.seq ∧ t.acc = s.acc ∧ t.ctl = s.ctl) ∧
      (s.tx.idx + 1 = s.tx.len → s.seq.abortPending = true →
        t.seq = { s.seq with muxState := .idle, curOp := .none, abortPending := false } ∧
        t.acc = { s.acc with valid := false } ∧ t.ctl = { s.ctl with done := true, err := 11 }) ∧
      (s.tx.idx + 1 = s.tx.len → s.seq.abortPending = false → t.ctl = s.ctl ∧
        (s.seq.txNext = .awaitUni →
          t.seq = { s.seq with muxState := .awaitUni } ∧ t.acc = { s.acc with valid := false }) ∧
        (s.seq.txNext = .awaitGather →
          t.seq = { s.seq with muxState := .awaitGather } ∧ t.acc = { s.acc with valid := false }) ∧
        (s.seq.txNext = .settle → t.seq = { s.seq with muxState := .settle } ∧ t.acc = s.acc)))

/-- R50, R119: with nothing else scheduled, the rest of a frame goes out in order, one byte a step, and after the last
byte the sequencer has left TX for `tx_next`, or for IDLE with ABORTED when an ABORT is pending. That an empty
schedule gives the block's steps is the model's choice (log 1). -/
def Obligations.PendingFrameIsSentWhole : Prop :=
  ∀ s : State, s.env.inputs = [] → s.seq.muxState = .tx → s.tx.idx.toNat < s.tx.len.toNat →
    ∃ t, Sys2Proof.core.run (s.tx.len.toNat - s.tx.idx.toNat) s = .next t ∧
      t.env.txStream = s.env.txStream ++
        Memory.readBytes s.tx.buf s.tx.idx.toNat (s.tx.len.toNat - s.tx.idx.toNat) ∧
      t.tx.buf = s.tx.buf ∧ t.rx = s.rx ∧ t.tab = s.tab ∧ t.resp = s.resp ∧ t.cnt = s.cnt ∧
      (s.seq.abortPending = true → t.seq.muxState = .idle ∧ t.ctl = { s.ctl with done := true, err := 11 }) ∧
      (s.seq.abortPending = false → t.ctl = s.ctl ∧
        (s.seq.txNext = .awaitUni → t.seq.muxState = .awaitUni) ∧
        (s.seq.txNext = .awaitGather → t.seq.muxState = .awaitGather) ∧
        (s.seq.txNext = .settle → t.seq.muxState = .settle))

/-! ### Reassembly -/

/-- R98: whatever frames a complete response was built from, they all carry its header fields, its payload is theirs in
arrival order, only the last has packet counter zero, and it is within the capacity. -/
def Obligations.CompleteResponseIsItsFragments : Prop :=
  ∀ (capacity : Nat) (a : Accumulator) (fs : List Frame) (f : Frame) (r : Response),
    255 ≤ capacity → capacity ≤ 4096 → a.valid = false → Memory.wf a.buf = true →
    (∀ g ∈ fs ++ [f], g.payload.length ≤ 255) →
    (reasmAll capacity a (fs ++ [f])).2 = List.replicate fs.length .pending ++ [.complete r] →
    (∀ g ∈ fs ++ [f], g.src = r.src ∧ g.dst = r.dst ∧ g.ctl = r.ctl ∧ g.cmd = r.cmd) ∧
    r.payload = (fs ++ [f]).flatMap Frame.payload ∧ f.pkt = 0 ∧ (∀ g ∈ fs, g.pkt ≠ 0) ∧
    r.payload.length ≤ capacity

/-- R94, R95: fragments of one header whose payloads fit, the last alone with packet counter zero, whatever the order of
the other counters, reassemble into one response with the payloads in arrival order, and the accumulator is empty again. -/
def Obligations.FragmentsReassemble : Prop :=
  ∀ (capacity : Nat) (a : Accumulator) (fs : List Frame) (f : Frame),
    255 ≤ capacity → capacity ≤ 4096 → a.valid = false → Memory.wf a.buf = true →
    (∀ g ∈ fs ++ [f], g.payload.length ≤ 255) →
    (∀ g ∈ fs, g.src = f.src ∧ g.dst = f.dst ∧ g.ctl = f.ctl ∧ g.cmd = f.cmd ∧ g.pkt ≠ 0) → f.pkt = 0 →
    ((fs ++ [f]).flatMap Frame.payload).length ≤ capacity →
    (reasmAll capacity a (fs ++ [f])).1.valid = false ∧
    (reasmAll capacity a (fs ++ [f])).2 = List.replicate fs.length .pending ++
      [.complete { src := f.src, dst := f.dst, ctl := f.ctl, cmd := f.cmd,
                   payload := (fs ++ [f]).flatMap Frame.payload }]

/-! ### Received frames -/

/-- R94, R121, R124: in either await a fragment with a nonzero packet counter, of any receive row, the first one or a further
one that matches and fits, is kept behind the payload so far, and nothing else changes. The receive rows are the model's
reading (log 5); bytes past the fragment stay (log 12). -/
def Obligations.PendingFragmentIsKept : Prop :=
  ∀ row ∈ receiveRows, ∀ (f : RxFields) (s : State), f.wellFormed = true →
    s.seq.muxState = .awaitUni ∨ s.seq.muxState = .awaitGather →
    TakesFragment s.params.reasmMax row.2 f s.acc → f.pkt ≠ 0 → Memory.wf s.acc.buf = true →
    ∃ t, exec (row.1 f) s = .next t ∧ t = { s with acc := t.acc } ∧
      t.acc.valid = true ∧ t.acc.src = f.src ∧ t.acc.dst = f.dst ∧ t.acc.ctl = f.ctl ∧ t.acc.cmd = row.2 ∧
      t.acc.pkt = f.pkt ∧ accPayload t.acc = accPayload s.acc ++ f.payload ∧
      (∀ a, (accPayload t.acc).length ≤ a → Memory.read t.acc.buf a = Memory.read s.acc.buf a)

/-- R94, R121, R123, R59: in the unicast await of ENUMERATE the fragment with packet counter zero, whatever its receive row,
the only one or the last of several, completes the operation with OK, and the whole response is shown in the response
registers; only the accumulator's contents change besides. The receive rows are the model's reading (log 5); bytes past
the response stay (log 12). -/
def Obligations.LastFragmentCompletesEnumerate : Prop :=
  ∀ row ∈ receiveRows, ∀ (f : RxFields) (s : State), f.wellFormed = true →
    s.seq.muxState = .awaitUni → s.seq.curOp = .enumerate → TakesFragment s.params.reasmMax row.2 f s.acc →
    f.pkt = 0 → Memory.wf s.acc.buf = true → Memory.wf s.resp.buf = true →
    ∃ t, exec (row.1 f) s = .next t ∧
      HoldsResponse (joinedResponse row.2 f s.acc) s.seq.enumD 0 s.resp t.resp ∧
      t.acc.valid = false ∧ t = { s with
        seq := { s.seq with muxState := .idle, curOp := .none, abortPending := false }
        acc := t.acc
        resp := t.resp
        ctl := { s.ctl with done := true, err := 0 } }

/-- R94, R121, R123, R59: in the unicast await of POLL the fragment with packet counter zero, whatever its receive row, the
only one or the last of several, makes the block hold the whole response for the host with the slot's number; only the
accumulator's contents change besides. The receive rows are the model's reading (log 5); bytes past the response stay
(log 12). -/
def Obligations.LastFragmentIsHeldForPoll : Prop :=
  ∀ row ∈ receiveRows, ∀ (f : RxFields) (s : State), f.wellFormed = true →
    s.seq.muxState = .awaitUni → s.seq.curOp = .poll → TakesFragment s.params.reasmMax row.2 f s.acc →
    f.pkt = 0 → Memory.wf s.acc.buf = true → Memory.wf s.resp.buf = true →
    ∃ t, exec (row.1 f) s = .next t ∧
      HoldsResponse (joinedResponse row.2 f s.acc) (s.seq.pollD.extractLsb' 0 4) s.seq.pollK s.resp t.resp ∧
      t.acc.valid = false ∧ t = { s with
        seq := { s.seq with muxState := .hold }
        acc := t.acc
        resp := t.resp }

/-- R121, R123, R138: in the unicast await a fragment of another response, or one that does not fit, ends the
transaction with FRAGMENT_INCONSISTENT, or REASM_OVERFLOW, and no data; ENUMERATE completes with the code, a POLL
result is held. The receive rows are the model's reading (log 5). -/
def Obligations.FragmentErrorConcludesTheTransaction : Prop :=
  ∀ row ∈ receiveRows, ∀ (f : RxFields) (s : State), f.wellFormed = true →
    s.seq.muxState = .awaitUni → s.acc.valid = true →
    ∀ code : BitVec 4,
      ((¬(f.src = s.acc.src ∧ f.dst = s.acc.dst ∧ f.ctl = s.acc.ctl ∧ row.2 = s.acc.cmd)) ∧ code = 4 ∨
        (f.src = s.acc.src ∧ f.dst = s.acc.dst ∧ f.ctl = s.acc.ctl ∧ row.2 = s.acc.cmd ∧
          s.params.reasmMax < s.acc.len.toNat + f.payload.length ∧ code = 8)) →
      (s.seq.curOp = .enumerate → exec (row.1 f) s = .next { s with
        seq := { s.seq with muxState := .idle, curOp := .none, abortPending := false }
        acc := { s.acc with valid := false }
        resp := { s.resp with valid := true, code := code, dev := s.seq.enumD, slot := 0, src := 0, dst := 0, ctl := 0,
                              cmd := 0, len := 0 }
        ctl := { s.ctl with done := true, err := code } }) ∧
      (s.seq.curOp = .poll → exec (row.1 f) s = .next { s with
        seq := { s.seq with muxState := .hold }
        acc := { s.acc with valid := false }
        resp := { s.resp with valid := true, code := code, dev := s.seq.pollD.extractLsb' 0 4, slot := s.seq.pollK,
                              src := 0, dst := 0, ctl := 0, cmd := 0, len := 0 } })

/-- R120: a good frame of any receive row that no transaction awaits is counted as unsolicited, and nothing else
changes. A payload longer than 255 bytes is no frame (R53): its row stops in every state, by the model's choice (log
10). -/
def Obligations.UnawaitedFrameIsCounted : Prop :=
  ∀ row ∈ receiveRows, ∀ (f : RxFields) (s : State),
    (f.wellFormed = true →
      s.seq.muxState = .idle ∨ s.seq.muxState = .tx ∨ s.seq.muxState = .settle ∨ s.seq.muxState = .hold →
      exec (row.1 f) s = .next { s with cnt := { s.cnt with unsol := s.cnt.unsol + 1 } }) ∧
    (f.wellFormed = false → exec (row.1 f) s = .fault .payloadTooLong)

/-- R94, R124, R125, R126: in the gather a discovery answer from a new address, of one frame or completed by its last
fragment, is appended to the device table, or sets `devovf` when the table is full; only the accumulator's contents change
besides. -/
def Obligations.NewDeviceIsAppended : Prop :=
  ∀ (f : RxFields) (s : State), f.wellFormed = true → s.seq.muxState = .awaitGather →
    TakesFragment s.params.reasmMax 6 f s.acc → Memory.wf s.acc.buf = true → f.pkt = 0 → f.src ≠ 0 →
    12 ≤ (accPayload s.acc ++ f.payload).length → (∀ i < s.tab.devCount.toNat, deviceAddr s i ≠ f.src) →
    (s.tab.devCount.toNat < s.params.maxDevices →
      ∃ t, exec (.rxGetNetStart f) s = .next t ∧ t.tab.devCount.toNat = s.tab.devCount.toNat + 1 ∧
        (deviceAt t s.tab.devCount.toNat).addr = f.src ∧
        le32Bytes (deviceAt t s.tab.devCount.toNat).serial = (accPayload s.acc ++ f.payload).take 4 ∧
        (deviceAt t s.tab.devCount.toNat).tag.toList = ((accPayload s.acc ++ f.payload).drop 4).take 8 ∧
        (∀ i, i ≠ s.tab.devCount.toNat → deviceAt t i = deviceAt s i) ∧
        t.acc.valid = false ∧
        t = { s with acc := t.acc, tab := { s.tab with devCount := t.tab.devCount, dev := t.tab.dev } }) ∧
    (s.params.maxDevices ≤ s.tab.devCount.toNat →
      ∃ t, exec (.rxGetNetStart f) s = .next t ∧ t.acc.valid = false ∧
        t = { s with acc := t.acc, ctl := { s.ctl with devovf := true } })

/-- R94, R124, R125, R126: in the gather a discovery answer from a known address, of one frame or completed by its last
fragment, updates its entry in place: the position and every other entry stay; only the accumulator's contents change
besides. -/
def Obligations.KnownDeviceIsUpdatedInPlace : Prop :=
  ∀ (f : RxFields) (s : State) (i : Nat), f.wellFormed = true → s.seq.muxState = .awaitGather →
    TakesFragment s.params.reasmMax 6 f s.acc → Memory.wf s.acc.buf = true → DeviceTableSound s → f.pkt = 0 →
    12 ≤ (accPayload s.acc ++ f.payload).length → i < s.tab.devCount.toNat → deviceAddr s i = f.src →
    ∃ t, exec (.rxGetNetStart f) s = .next t ∧ (deviceAt t i).addr = f.src ∧
      le32Bytes (deviceAt t i).serial = (accPayload s.acc ++ f.payload).take 4 ∧
      (deviceAt t i).tag.toList = ((accPayload s.acc ++ f.payload).drop 4).take 8 ∧
      (∀ j, j ≠ i → deviceAt t j = deviceAt s j) ∧ t.acc.valid = false ∧
      t = { s with acc := t.acc, tab := { s.tab with dev := t.tab.dev } }

/-- R94, R124, R125: in the gather a response, of one frame or completed by its last fragment, that is no discovery answer
(another command, address 0, or fewer than 12 bytes) is counted as unsolicited and writes no table; only the
accumulator's contents change besides. The receive rows are the model's reading (log 5). -/
def Obligations.OtherGatheredResponseIsUnsolicited : Prop :=
  ∀ row ∈ receiveRows, ∀ (f : RxFields) (s : State), f.wellFormed = true → s.seq.muxState = .awaitGather →
    TakesFragment s.params.reasmMax row.2 f s.acc → Memory.wf s.acc.buf = true → f.pkt = 0 →
    row.2 ≠ 6 ∨ f.src = 0 ∨ (accPayload s.acc ++ f.payload).length < 12 →
    ∃ t, exec (row.1 f) s = .next t ∧ t.acc.valid = false ∧
      t = { s with acc := t.acc, cnt := { s.cnt with unsol := s.cnt.unsol + 1 } }

/-- R124: a fragment error in the gather is counted in `cnt_frag`, empties the accumulator and does not end the
gather. The receive rows are the model's reading (log 5). -/
def Obligations.FragmentErrorKeepsTheGather : Prop :=
  ∀ row ∈ receiveRows, ∀ (f : RxFields) (s : State), f.wellFormed = true → s.seq.muxState = .awaitGather →
    s.acc.valid = true →
    ¬(f.src = s.acc.src ∧ f.dst = s.acc.dst ∧ f.ctl = s.acc.ctl ∧ row.2 = s.acc.cmd) ∨
      s.params.reasmMax < s.acc.len.toNat + f.payload.length →
    exec (row.1 f) s = .next { s with
      acc := { s.acc with valid := false }
      cnt := { s.cnt with frag := s.cnt.frag + 1 } }

/-! ### Poll sequencing -/

/-- R128: `NextSlot` answers the smallest requested slot after the given one, or none when there is none; `FirstSlot` the
smallest of all. -/
def Obligations.NextSlotIsTheSmallestLater : Prop :=
  ∀ s : State,
    (∀ d0 k0, k0 < 8 →
      (∀ d k, nextSlot s d0 k0 = some (d, k) → requestedSlot s d k ∧ slotBefore d0 k0 d k ∧
        ∀ d' k', requestedSlot s d' k' → slotBefore d0 k0 d' k' → ¬slotBefore d' k' d k) ∧
      (nextSlot s d0 k0 = none → ∀ d' k', requestedSlot s d' k' → ¬slotBefore d0 k0 d' k')) ∧
    (∀ d k, firstSlot s = some (d, k) → requestedSlot s d k ∧ ∀ d' k', requestedSlot s d' k' → ¬slotBefore d' k' d k) ∧
    (firstSlot s = none → ∀ d' k', ¬requestedSlot s d' k')

/-! ### Link events -/

/-- R122, R127: an empty read ends a unicast await with NO_RESPONSE and no data, and a gather with DISCOVERY_EMPTY or OK;
a partial response is dropped. -/
def Obligations.TimeoutEndsTheAwait : Prop :=
  ∀ (s : State) (rest : List Event), s.env.inputs = .rxTimeout :: rest → s.rx.state = .idle →
    (s.seq.muxState = .awaitUni → s.seq.curOp = .enumerate → step s = .next { s with
      seq := { s.seq with muxState := .idle, curOp := .none, abortPending := false }
      acc := { s.acc with valid := false }
      resp := { s.resp with valid := true, code := 5, dev := s.seq.enumD, slot := 0, src := 0, dst := 0, ctl := 0,
                            cmd := 0, len := 0 }
      ctl := { s.ctl with done := true, err := 5 }
      env := { s.env with inputs := rest } }) ∧
    (s.seq.muxState = .awaitUni → s.seq.curOp = .poll → step s = .next { s with
      seq := { s.seq with muxState := .hold }
      acc := { s.acc with valid := false }
      resp := { s.resp with valid := true, code := 5, dev := s.seq.pollD.extractLsb' 0 4, slot := s.seq.pollK, src := 0,
                            dst := 0, ctl := 0, cmd := 0, len := 0 }
      env := { s.env with inputs := rest } }) ∧
    (s.seq.muxState = .awaitGather → step s = .next { s with
      seq := { s.seq with muxState := .idle, curOp := .none, abortPending := false }
      acc := { s.acc with valid := false }
      ctl := { s.ctl with done := true, err := if s.tab.devCount = 0 then 6 else 0 }
      env := { s.env with inputs := rest } })

/-- R133, R89: a timeout outside the awaits or with a buffer open, a settle event outside SETTLE and a quiet gap with no
buffer open change no state. -/
def Obligations.EventsOutOfContractChangeNothing : Prop :=
  ∀ (s : State) (rest : List Event),
    (s.env.inputs = .rxTimeout :: rest →
      (s.seq.muxState ≠ .awaitUni ∧ s.seq.muxState ≠ .awaitGather) ∨ s.rx.state ≠ .idle →
      step s = .next { s with env := { s.env with inputs := rest } }) ∧
    (s.env.inputs = .settleElapsed :: rest → s.seq.muxState ≠ .settle →
      step s = .next { s with env := { s.env with inputs := rest } }) ∧
    (s.env.inputs = .rxQuiet :: rest → s.rx.state = .idle →
      step s = .next { s with env := { s.env with inputs := rest } })

/-- R132, R89: a link error sets `linkerr`, discards an open buffer without counting it, and ends a running operation with
TRANSPORT_IO, whatever was pending. -/
def Obligations.LinkErrorEndsTheOperation : Prop :=
  ∀ (s : State) (rest : List Event), s.env.inputs = .linkError :: rest →
    (s.seq.muxState = .idle → step s = .next { s with
      rx := { s.rx with state := .idle }
      ctl := { s.ctl with linkerr := true }
      env := { s.env with inputs := rest } }) ∧
    (s.seq.muxState ≠ .idle → step s = .next { s with
      seq := { s.seq with muxState := .idle, curOp := .none, abortPending := false }
      rx := { s.rx with state := .idle }
      acc := { s.acc with valid := false }
      ctl := { s.ctl with done := true, err := 7, linkerr := true }
      env := { s.env with inputs := rest } })

/-! ### Invariants and whole-machine rules -/

/-- R29: the reset state is sound in every respect. -/
def Obligations.ResetStateIsSound : Prop :=
  BuffersSound State.reset ∧ SequencerSound State.reset ∧ DeviceTableSound State.reset ∧ CodesLegal State.reset ∧
    TransmissionSound State.reset ∧ CursorSound State.reset

/-- R18, R20, R21, R24, R84, R94: every step keeps the buffers canonical and within their sizes. The canonical form is
the model's (log 7). -/
def Obligations.EveryStepKeepsBuffersSound : Prop :=
  ∀ s t : State, BuffersSound s → step s = .next t → BuffersSound t

/-- R100, R101, R107, R108, R116, R123: every step keeps the sequencer sound: operation and state fit, an ABORT is pending
only in TX, a running operation has not completed, a held result is valid, and the accumulator is in use only in an
await. -/
def Obligations.EveryStepKeepsSequencerSound : Prop :=
  ∀ s t : State, SequencerSound s → step s = .next t → SequencerSound t

/-- R22, R112, R125, R126: every step keeps the device table keyed by distinct nonzero addresses and empty past its
count. -/
def Obligations.EveryStepKeepsDeviceTableSound : Prop :=
  ∀ s t : State, DeviceTableSound s → step s = .next t → DeviceTableSound t

/-- R134: every step keeps the code registers at codes the spec lists for them. -/
def Obligations.EveryStepKeepsCodesLegal : Prop :=
  ∀ s t : State, CodesLegal s → step s = .next t → CodesLegal t

/-- R4, R50, R102, R119: every step from sound buffers keeps that a frame in transmission is one of the four request rows,
is not sent whole yet, and that what was sent of it ends the transmit stream. Every step, from any state, leaves the
transmit stream alone or, in TX, appends the one byte at `tx_idx`. The recorded stream is the model's own field (log 9). -/
def Obligations.EveryStepKeepsTransmissionSound : Prop :=
  (∀ s t : State, BuffersSound s → TransmissionSound s → step s = .next t → TransmissionSound t) ∧
  ∀ s t : State, step s = .next t → t.env.txStream = s.env.txStream ∨
    (s.seq.muxState = .tx ∧
      t.env.txStream = s.env.txStream ++ [Memory.read s.tx.buf s.tx.idx.toNat] ∧ t.tx.idx = s.tx.idx + 1)

/-- R113, R115, R128, R129: every step from a sound sequencer and device table keeps the operands of a running operation
on discovered devices. -/
def Obligations.EveryStepKeepsCursorSound : Prop :=
  ∀ s t : State, SequencerSound s → DeviceTableSound s → CursorSound s → step s = .next t → CursorSound t

/-- R37, R42, R51: while the block is busy, no step but a reset changes ARG or the channel request table. -/
def Obligations.OperandsStandWhileBusy : Prop :=
  ∀ s t : State, s.seq.muxState ≠ .idle → stepResets s = false → step s = .next t →
    t.ctl.arg = s.ctl.arg ∧ t.tab.crt = s.tab.crt

/-- R22: outside the gather, no step but a reset and an accepted DISCOVER changes the device table. -/
def Obligations.OnlyDiscoveryWritesTheDeviceTable : Prop :=
  ∀ s t : State, s.seq.muxState ≠ .awaitGather → stepResets s = false → stepDiscovers s = false →
    step s = .next t → t.tab.devCount = s.tab.devCount ∧ t.tab.dev = s.tab.dev

/-- R142: the interrupt line is `ie AND (done OR hold)`, 0 at reset, and its two sources are never both 1 in a sound
state. -/
def Obligations.InterruptLineFollowsItsSources : Prop :=
  (∀ s : State, irq s = true ↔ s.ctl.ie = true ∧ (s.ctl.done = true ∨ s.seq.muxState = .hold)) ∧
  irq State.reset = false ∧
  (∀ s : State, SequencerSound s → ¬(s.ctl.done = true ∧ s.seq.muxState = .hold))
end

