-- ==== Sys2Proof/Laws/Codec.lean ====
section
/-! SUPPORT. Byte order, checksum and frame layout: the lemmas that proofs about the codec cite. -/

namespace Sys2Proof

theorem lo8_toNat (v : Half) : (lo8 v).toNat = v.toNat % 256 := by simp [lo8]

theorem hi8_toNat (v : Half) : (hi8 v).toNat = v.toNat / 256 := by
  have := v.isLt
  simp only [hi8, BitVec.extractLsb'_toNat, Nat.shiftRight_eq_div_pow]
  omega

theorem le16_toNat (lo hi : Byte) : (le16 lo hi).toNat = lo.toNat + 256 * hi.toNat := by
  have := lo.isLt
  have := hi.isLt
  simp only [le16, BitVec.toNat_ofNat]
  omega

theorem le32_toNat (b0 b1 b2 b3 : Byte) :
    (le32 b0 b1 b2 b3).toNat = b0.toNat + 2 ^ 8 * b1.toNat + 2 ^ 16 * b2.toNat + 2 ^ 24 * b3.toNat := by
  have := b0.isLt
  have := b1.isLt
  have := b2.isLt
  have := b3.isLt
  simp only [le32, BitVec.toNat_ofNat]
  omega

@[simp] theorem lo8_le16 (lo hi : Byte) : lo8 (le16 lo hi) = lo := by
  have := lo.isLt
  apply BitVec.eq_of_toNat_eq
  rw [lo8_toNat, le16_toNat]
  omega

@[simp] theorem hi8_le16 (lo hi : Byte) : hi8 (le16 lo hi) = hi := by
  have := lo.isLt
  apply BitVec.eq_of_toNat_eq
  rw [hi8_toNat, le16_toNat]
  omega

@[simp] theorem le16_lo8_hi8 (v : Half) : le16 (lo8 v) (hi8 v) = v := by
  apply BitVec.eq_of_toNat_eq
  rw [le16_toNat, lo8_toNat, hi8_toNat]
  omega

@[simp] theorem le32Bytes_le32 (b0 b1 b2 b3 : Byte) : le32Bytes (le32 b0 b1 b2 b3) = [b0, b1, b2, b3] := by
  have := b0.isLt
  have := b1.isLt
  have := b2.isLt
  have := b3.isLt
  have h := le32_toNat b0 b1 b2 b3
  simp only [le32Bytes, List.cons.injEq, and_true]
  refine ⟨?_, ?_, ?_, ?_⟩ <;>
    (apply BitVec.eq_of_toNat_eq; simp only [BitVec.extractLsb'_toNat, h, Nat.shiftRight_eq_div_pow]; omega)

/-- The bytes of a word, least significant first, give the word back. -/
theorem le32_of_le32Bytes (w : Word) :
    le32 (w.extractLsb' 0 8) (w.extractLsb' 8 8) (w.extractLsb' 16 8) (w.extractLsb' 24 8) = w := by
  have := w.isLt
  apply BitVec.eq_of_toNat_eq
  simp only [le32_toNat, BitVec.extractLsb'_toNat, Nat.shiftRight_eq_div_pow]
  omega

theorem checksum_append (xs ys : List Byte) : checksum (xs ++ ys) = ys.foldl addByte (checksum xs) := by
  simp [checksum, List.foldl_append]

@[simp] theorem headerBytes_length (src dst : Half) (ctl pkt cmd : Byte) :
    (headerBytes src dst ctl pkt cmd).length = 7 := rfl

@[simp] theorem trailerBytes_length (crc : Half) : (trailerBytes crc).length = 3 := rfl

/-- A frame with wake bytes is `16 + L` bytes long (30_encoding R54). -/
@[simp] theorem frameBytes_length (src dst : Half) (ctl pkt cmd : Byte) (payload : List Byte) :
    (frameBytes src dst ctl pkt cmd payload).length = 16 + payload.length := by
  simp [frameBytes]
  omega

@[simp] theorem encodeFrame_length (dst : Half) (pkt cmd ctl : Byte) (payload : List Byte) :
    (encodeFrame dst pkt cmd ctl payload).length = 16 + payload.length := frameBytes_length ..

@[simp] theorem le32Bytes_length (w : Word) : (le32Bytes w).length = 4 := rfl

@[simp] theorem hasWake_frameBytes (src dst : Half) (ctl pkt cmd : Byte) (payload : List Byte) :
    hasWake (frameBytes src dst ctl pkt cmd payload) = true := by
  unfold hasWake frameBytes
  simp

/-- Without the wake bytes a frame is its body (30_encoding R52). -/
theorem frameBody_frameBytes (src dst : Half) (ctl pkt cmd : Byte) (payload : List Byte) :
    frameBody (frameBytes src dst ctl pkt cmd payload) =
      [0x68, BitVec.ofNat 8 payload.length, BitVec.ofNat 8 payload.length, 0x68]
        ++ (headerBytes src dst ctl pkt cmd ++ payload)
        ++ trailerBytes (checksum (headerBytes src dst ctl pkt cmd ++ payload)) := by
  rw [frameBody, hasWake_frameBytes, if_pos rfl]
  simp [frameBytes]

end Sys2Proof
end

