-- ==== Sys2Proof/Laws/Memory.lean ====
section
/-! SUPPORT. The byte buffers: every operation keeps the canonical form, a read after a write of the same index gives the
byte written, and every other index is left alone. -/

namespace Sys2Proof.Machine

/-- Every listed index is above `a`. -/
def Memory.above (m : Memory) (a : Nat) : Prop := ∀ c ∈ m, a < c.1

theorem Memory.wf_cons_iff (x : Nat) (v : Byte) (m : Memory) :
    Memory.wf ((x, v) :: m) = true ↔ v ≠ unlistedByte ∧ Memory.above m x ∧ Memory.wf m = true := by
  induction m generalizing x v with
  | nil => simp [Memory.wf, Memory.above]
  | cons c rest ih =>
    obtain ⟨y, w⟩ := c
    have unfolded : Memory.wf ((x, v) :: (y, w) :: rest) = true ↔
        v ≠ unlistedByte ∧ x < y ∧ Memory.wf ((y, w) :: rest) = true := by
      simp [Memory.wf, and_assoc]
    rw [unfolded]
    constructor
    · rintro ⟨hv, hxy, hw⟩
      refine ⟨hv, ?_, hw⟩
      intro c hc
      rcases List.mem_cons.mp hc with rfl | hc
      · exact hxy
      · exact lt_trans hxy (((ih y w).mp hw).2.1 c hc)
    · rintro ⟨hv, habove, hw⟩
      exact ⟨hv, habove (y, w) (by simp), hw⟩

@[simp] theorem Memory.wf_nil : Memory.wf [] = true := rfl

@[simp] theorem Memory.read_nil (a : Nat) : Memory.read [] a = unlistedByte := rfl

theorem Memory.read_of_above {m : Memory} {a : Nat} (h : Memory.above m a) : Memory.read m a = unlistedByte := by
  induction m with
  | nil => rfl
  | cons c rest ih =>
    obtain ⟨x, v⟩ := c
    have hx : a < x := h (x, v) (by simp)
    have hrest : Memory.above rest a := fun d hd => h d (by simp [hd])
    simp [Memory.read, Nat.ne_of_lt hx, ih hrest]

theorem Memory.above_mono {m : Memory} {a b : Nat} (h : Memory.above m b) (hab : a ≤ b) : Memory.above m a :=
  fun c hc => lt_of_le_of_lt hab (h c hc)

theorem Memory.mem_cons {a : Nat} {b : Byte} {m : Memory} {c : Host.Cell} (h : c ∈ Memory.cons a b m) :
    c = (a, b) ∨ c ∈ m := by
  unfold Memory.cons at h
  split at h
  · exact Or.inr h
  · simpa using h

theorem Memory.mem_write {m : Memory} {a : Nat} {b : Byte} {c : Host.Cell} (h : c ∈ Memory.write m a b) :
    c = (a, b) ∨ c ∈ m := by
  induction m with
  | nil => simpa using Memory.mem_cons h
  | cons d rest ih =>
    obtain ⟨x, v⟩ := d
    unfold Memory.write at h
    split at h
    · exact Memory.mem_cons h
    · split at h
      · rcases Memory.mem_cons h with h | h
        · exact Or.inl h
        · exact Or.inr (by simp [h])
      · rcases List.mem_cons.mp h with h | h
        · exact Or.inr (by simp [h])
        · rcases ih h with h | h
          · exact Or.inl h
          · exact Or.inr (by simp [h])

theorem Memory.wf_cons_op {a : Nat} {b : Byte} {m : Memory} (hm : Memory.wf m = true) (ha : Memory.above m a) :
    Memory.wf (Memory.cons a b m) = true := by
  unfold Memory.cons
  split
  · exact hm
  · exact (Memory.wf_cons_iff a b m).mpr ⟨‹_›, ha, hm⟩

/-- A write keeps the canonical form. -/
theorem Memory.wf_write {m : Memory} (h : Memory.wf m = true) (a : Nat) (b : Byte) :
    Memory.wf (Memory.write m a b) = true := by
  induction m with
  | nil => exact Memory.wf_cons_op rfl (by simp [Memory.above])
  | cons d rest ih =>
    obtain ⟨x, v⟩ := d
    obtain ⟨hv, habove, hrest⟩ := (Memory.wf_cons_iff x v rest).mp h
    unfold Memory.write
    split
    · rename_i hax
      refine Memory.wf_cons_op h ?_
      intro c hc
      rcases List.mem_cons.mp hc with rfl | hc
      · exact hax
      · exact lt_trans hax (habove c hc)
    · split
      · rename_i _ hax
        exact Memory.wf_cons_op hrest (hax ▸ habove)
      · rename_i hlt hne
        refine (Memory.wf_cons_iff x v _).mpr ⟨hv, ?_, ih hrest⟩
        intro c hc
        rcases Memory.mem_write hc with rfl | hc
        · exact lt_of_le_of_ne (Nat.le_of_not_lt hlt) (Ne.symm hne)
        · exact habove c hc

/-- A write of a sequence keeps the canonical form. -/
theorem Memory.wf_writeBytes {m : Memory} (h : Memory.wf m = true) (a : Nat) (bs : List Byte) :
    Memory.wf (Memory.writeBytes m a bs) = true := by
  induction bs generalizing m a with
  | nil => exact h
  | cons b bs ih => exact ih (Memory.wf_write h a b) (a + 1)

theorem Memory.read_cons_same {m : Memory} {a : Nat} (b : Byte) (ha : Memory.above m a) :
    Memory.read (Memory.cons a b m) a = b := by
  unfold Memory.cons
  split
  · rename_i hb
    rw [Memory.read_of_above ha, hb]
  · simp [Memory.read]

theorem Memory.read_cons_other {m : Memory} {a a' : Nat} (b : Byte) (ha : a' ≠ a) :
    Memory.read (Memory.cons a b m) a' = Memory.read m a' := by
  unfold Memory.cons
  split
  · rfl
  · simp [Memory.read, ha]

/-- A read of the index just written gives the byte written. -/
theorem Memory.read_write_same {m : Memory} (h : Memory.wf m = true) (a : Nat) (b : Byte) :
    Memory.read (Memory.write m a b) a = b := by
  induction m with
  | nil => exact Memory.read_cons_same b (by simp [Memory.above])
  | cons d rest ih =>
    obtain ⟨x, v⟩ := d
    obtain ⟨_, habove, hrest⟩ := (Memory.wf_cons_iff x v rest).mp h
    unfold Memory.write
    split
    · rename_i hax
      refine Memory.read_cons_same b ?_
      intro c hc
      rcases List.mem_cons.mp hc with rfl | hc
      · exact hax
      · exact lt_trans hax (habove c hc)
    · split
      · rename_i _ hax
        exact Memory.read_cons_same b (hax ▸ habove)
      · rename_i hne
        simp [Memory.read, hne, ih hrest]

/-- A write leaves every other index alone. -/
theorem Memory.read_write_other (m : Memory) {a a' : Nat} (b : Byte) (ha : a' ≠ a) :
    Memory.read (Memory.write m a b) a' = Memory.read m a' := by
  induction m with
  | nil => exact Memory.read_cons_other b ha
  | cons d rest ih =>
    obtain ⟨x, v⟩ := d
    unfold Memory.write
    split
    · exact Memory.read_cons_other b ha
    · split
      · rename_i _ hax
        rw [Memory.read_cons_other b ha]
        simp [Memory.read, ← hax, ha]
      · simp [Memory.read, ih]

/-- A write of a sequence leaves the indices outside it alone. -/
theorem Memory.read_writeBytes_outside (m : Memory) (a : Nat) (bs : List Byte) {j : Nat}
    (hj : j < a ∨ a + bs.length ≤ j) : Memory.read (Memory.writeBytes m a bs) j = Memory.read m j := by
  induction bs generalizing m a with
  | nil => rfl
  | cons b bs ih =>
    have hj' : j < a + 1 ∨ a + 1 + bs.length ≤ j := by
      simp only [List.length_cons] at hj
      omega
    have hne : j ≠ a := by
      simp only [List.length_cons] at hj
      omega
    rw [Memory.writeBytes, ih (Memory.write m a b) (a + 1) hj', Memory.read_write_other m b hne]

/-- The bytes of a sequence just written are read back. -/
theorem Memory.readBytes_writeBytes {m : Memory} (h : Memory.wf m = true) (a : Nat) (bs : List Byte) :
    Memory.readBytes (Memory.writeBytes m a bs) a bs.length = bs := by
  induction bs generalizing m a with
  | nil => rfl
  | cons b bs ih =>
    have hw := Memory.wf_write h a b
    have hhead : Memory.read (Memory.writeBytes (Memory.write m a b) (a + 1) bs) a = b := by
      rw [Memory.read_writeBytes_outside _ _ _ (Or.inl (Nat.lt_succ_self a)), Memory.read_write_same h]
    simp only [List.length_cons, Memory.writeBytes, Memory.readBytes, hhead, ih hw (a + 1)]

/-- Two buffers that agree on a range read the same bytes there. -/
theorem Memory.readBytes_congr {m m' : Memory} (a n : Nat)
    (h : ∀ j, a ≤ j → j < a + n → Memory.read m j = Memory.read m' j) :
    Memory.readBytes m a n = Memory.readBytes m' a n := by
  induction n generalizing a with
  | zero => rfl
  | succ n ih =>
    simp only [Memory.readBytes]
    rw [h a (le_refl a) (by omega), ih (a + 1) (fun j h1 h2 => h j (by omega) (by omega))]

theorem Memory.readBytes_append (m : Memory) (a n k : Nat) :
    Memory.readBytes m a (n + k) = Memory.readBytes m a n ++ Memory.readBytes m (a + n) k := by
  induction n generalizing a with
  | zero => simp [Memory.readBytes]
  | succ n ih =>
    have hn : n + 1 + k = (n + k) + 1 := by omega
    have ha : a + (n + 1) = a + 1 + n := by omega
    rw [hn, Memory.readBytes, Memory.readBytes, ih (a + 1), ha, List.cons_append]

@[simp] theorem Memory.readBytes_length (m : Memory) (a n : Nat) : (Memory.readBytes m a n).length = n := by
  induction n generalizing a with
  | zero => rfl
  | succ n ih => simp [Memory.readBytes, ih]

theorem Memory.within_iff (m : Memory) (capacity : Nat) :
    Memory.within m capacity = true ↔ ∀ c ∈ m, c.1 < capacity := by
  simp [Memory.within]

/-- A write below the capacity keeps the buffer within it. -/
theorem Memory.within_write {m : Memory} {capacity : Nat} (h : Memory.within m capacity = true) {a : Nat}
    (ha : a < capacity) (b : Byte) : Memory.within (Memory.write m a b) capacity = true := by
  rw [Memory.within_iff] at h ⊢
  intro c hc
  rcases Memory.mem_write hc with rfl | hc
  · exact ha
  · exact h c hc

/-- A write of a sequence that ends below the capacity keeps the buffer within it. -/
theorem Memory.within_writeBytes {m : Memory} {capacity : Nat} (h : Memory.within m capacity = true) {a : Nat}
    {bs : List Byte} (ha : a + bs.length ≤ capacity) :
    Memory.within (Memory.writeBytes m a bs) capacity = true := by
  induction bs generalizing m a with
  | nil => exact h
  | cons b bs ih =>
    simp only [List.length_cons] at ha
    exact ih (Memory.within_write h (by omega) b) (by omega)

/-- The buffers of the reset state are canonical. -/
theorem Memory.wf_reset :
    (Memory.wf State.reset.tx.buf && Memory.wf State.reset.rx.pay && Memory.wf State.reset.acc.buf
      && Memory.wf State.reset.resp.buf) = true := rfl

end Sys2Proof.Machine
end

