-- ==== Sys2Proof/Laws/State.lean ====
section
/-! SUPPORT. One lemma for each field and each named update of the state, true by `rfl` and in the simp set, so that no
later proof unfolds a record update: what the update writes, and that it writes nothing else. -/

namespace Sys2Proof.Machine

/-! ### accept -/

@[simp] theorem accept_params (op : CurOp) (s : State) : (accept op s).params = s.params := rfl
@[simp] theorem accept_seq_muxState (op : CurOp) (s : State) : (accept op s).seq.muxState = s.seq.muxState := rfl
@[simp] theorem accept_seq_curOp (op : CurOp) (s : State) :
    (accept op s).seq.curOp = op := rfl
@[simp] theorem accept_seq_txNext (op : CurOp) (s : State) : (accept op s).seq.txNext = s.seq.txNext := rfl
@[simp] theorem accept_seq_abortPending (op : CurOp) (s : State) : (accept op s).seq.abortPending = s.seq.abortPending := rfl
@[simp] theorem accept_seq_enumD (op : CurOp) (s : State) : (accept op s).seq.enumD = s.seq.enumD := rfl
@[simp] theorem accept_seq_pollT (op : CurOp) (s : State) : (accept op s).seq.pollT = s.seq.pollT := rfl
@[simp] theorem accept_seq_pollD (op : CurOp) (s : State) : (accept op s).seq.pollD = s.seq.pollD := rfl
@[simp] theorem accept_seq_pollK (op : CurOp) (s : State) : (accept op s).seq.pollK = s.seq.pollK := rfl
@[simp] theorem accept_tx (op : CurOp) (s : State) : (accept op s).tx = s.tx := rfl
@[simp] theorem accept_rx (op : CurOp) (s : State) : (accept op s).rx = s.rx := rfl
@[simp] theorem accept_acc (op : CurOp) (s : State) : (accept op s).acc = s.acc := rfl
@[simp] theorem accept_tab (op : CurOp) (s : State) : (accept op s).tab = s.tab := rfl
@[simp] theorem accept_resp_valid (op : CurOp) (s : State) :
    (accept op s).resp.valid = false := rfl
@[simp] theorem accept_resp_code (op : CurOp) (s : State) : (accept op s).resp.code = s.resp.code := rfl
@[simp] theorem accept_resp_dev (op : CurOp) (s : State) : (accept op s).resp.dev = s.resp.dev := rfl
@[simp] theorem accept_resp_slot (op : CurOp) (s : State) : (accept op s).resp.slot = s.resp.slot := rfl
@[simp] theorem accept_resp_src (op : CurOp) (s : State) : (accept op s).resp.src = s.resp.src := rfl
@[simp] theorem accept_resp_dst (op : CurOp) (s : State) : (accept op s).resp.dst = s.resp.dst := rfl
@[simp] theorem accept_resp_ctl (op : CurOp) (s : State) : (accept op s).resp.ctl = s.resp.ctl := rfl
@[simp] theorem accept_resp_cmd (op : CurOp) (s : State) : (accept op s).resp.cmd = s.resp.cmd := rfl
@[simp] theorem accept_resp_len (op : CurOp) (s : State) : (accept op s).resp.len = s.resp.len := rfl
@[simp] theorem accept_resp_buf (op : CurOp) (s : State) : (accept op s).resp.buf = s.resp.buf := rfl
@[simp] theorem accept_ctl_ie (op : CurOp) (s : State) : (accept op s).ctl.ie = s.ctl.ie := rfl
@[simp] theorem accept_ctl_arg (op : CurOp) (s : State) : (accept op s).ctl.arg = s.ctl.arg := rfl
@[simp] theorem accept_ctl_done (op : CurOp) (s : State) :
    (accept op s).ctl.done = false := rfl
@[simp] theorem accept_ctl_err (op : CurOp) (s : State) :
    (accept op s).ctl.err = 0 := rfl
@[simp] theorem accept_ctl_devovf (op : CurOp) (s : State) : (accept op s).ctl.devovf = s.ctl.devovf := rfl
@[simp] theorem accept_ctl_linkerr (op : CurOp) (s : State) : (accept op s).ctl.linkerr = s.ctl.linkerr := rfl
@[simp] theorem accept_ctl_cmderr (op : CurOp) (s : State) : (accept op s).ctl.cmderr = s.ctl.cmderr := rfl
@[simp] theorem accept_cnt (op : CurOp) (s : State) : (accept op s).cnt = s.cnt := rfl
@[simp] theorem accept_env (op : CurOp) (s : State) : (accept op s).env = s.env := rfl

/-! ### complete -/

@[simp] theorem complete_params (c : Code) (s : State) : (complete c s).params = s.params := rfl
@[simp] theorem complete_seq_muxState (c : Code) (s : State) :
    (complete c s).seq.muxState = .idle := rfl
@[simp] theorem complete_seq_curOp (c : Code) (s : State) :
    (complete c s).seq.curOp = .none := rfl
@[simp] theorem complete_seq_txNext (c : Code) (s : State) : (complete c s).seq.txNext = s.seq.txNext := rfl
@[simp] theorem complete_seq_abortPending (c : Code) (s : State) :
    (complete c s).seq.abortPending = false := rfl
@[simp] theorem complete_seq_enumD (c : Code) (s : State) : (complete c s).seq.enumD = s.seq.enumD := rfl
@[simp] theorem complete_seq_pollT (c : Code) (s : State) : (complete c s).seq.pollT = s.seq.pollT := rfl
@[simp] theorem complete_seq_pollD (c : Code) (s : State) : (complete c s).seq.pollD = s.seq.pollD := rfl
@[simp] theorem complete_seq_pollK (c : Code) (s : State) : (complete c s).seq.pollK = s.seq.pollK := rfl
@[simp] theorem complete_tx (c : Code) (s : State) : (complete c s).tx = s.tx := rfl
@[simp] theorem complete_rx (c : Code) (s : State) : (complete c s).rx = s.rx := rfl
@[simp] theorem complete_acc_valid (c : Code) (s : State) :
    (complete c s).acc.valid = false := rfl
@[simp] theorem complete_acc_src (c : Code) (s : State) : (complete c s).acc.src = s.acc.src := rfl
@[simp] theorem complete_acc_dst (c : Code) (s : State) : (complete c s).acc.dst = s.acc.dst := rfl
@[simp] theorem complete_acc_ctl (c : Code) (s : State) : (complete c s).acc.ctl = s.acc.ctl := rfl
@[simp] theorem complete_acc_cmd (c : Code) (s : State) : (complete c s).acc.cmd = s.acc.cmd := rfl
@[simp] theorem complete_acc_pkt (c : Code) (s : State) : (complete c s).acc.pkt = s.acc.pkt := rfl
@[simp] theorem complete_acc_len (c : Code) (s : State) : (complete c s).acc.len = s.acc.len := rfl
@[simp] theorem complete_acc_buf (c : Code) (s : State) : (complete c s).acc.buf = s.acc.buf := rfl
@[simp] theorem complete_tab (c : Code) (s : State) : (complete c s).tab = s.tab := rfl
@[simp] theorem complete_resp (c : Code) (s : State) : (complete c s).resp = s.resp := rfl
@[simp] theorem complete_ctl_ie (c : Code) (s : State) : (complete c s).ctl.ie = s.ctl.ie := rfl
@[simp] theorem complete_ctl_arg (c : Code) (s : State) : (complete c s).ctl.arg = s.ctl.arg := rfl
@[simp] theorem complete_ctl_done (c : Code) (s : State) :
    (complete c s).ctl.done = true := rfl
@[simp] theorem complete_ctl_err (c : Code) (s : State) :
    (complete c s).ctl.err = c.bits := rfl
@[simp] theorem complete_ctl_devovf (c : Code) (s : State) : (complete c s).ctl.devovf = s.ctl.devovf := rfl
@[simp] theorem complete_ctl_linkerr (c : Code) (s : State) : (complete c s).ctl.linkerr = s.ctl.linkerr := rfl
@[simp] theorem complete_ctl_cmderr (c : Code) (s : State) : (complete c s).ctl.cmderr = s.ctl.cmderr := rfl
@[simp] theorem complete_cnt (c : Code) (s : State) : (complete c s).cnt = s.cnt := rfl
@[simp] theorem complete_env (c : Code) (s : State) : (complete c s).env = s.env := rfl

/-! ### refuse -/

@[simp] theorem refuse_params (s : State) : (refuse s).params = s.params := rfl
@[simp] theorem refuse_seq (s : State) : (refuse s).seq = s.seq := rfl
@[simp] theorem refuse_tx (s : State) : (refuse s).tx = s.tx := rfl
@[simp] theorem refuse_rx (s : State) : (refuse s).rx = s.rx := rfl
@[simp] theorem refuse_acc (s : State) : (refuse s).acc = s.acc := rfl
@[simp] theorem refuse_tab (s : State) : (refuse s).tab = s.tab := rfl
@[simp] theorem refuse_resp (s : State) : (refuse s).resp = s.resp := rfl
@[simp] theorem refuse_ctl_ie (s : State) : (refuse s).ctl.ie = s.ctl.ie := rfl
@[simp] theorem refuse_ctl_arg (s : State) : (refuse s).ctl.arg = s.ctl.arg := rfl
@[simp] theorem refuse_ctl_done (s : State) : (refuse s).ctl.done = s.ctl.done := rfl
@[simp] theorem refuse_ctl_err (s : State) : (refuse s).ctl.err = s.ctl.err := rfl
@[simp] theorem refuse_ctl_devovf (s : State) : (refuse s).ctl.devovf = s.ctl.devovf := rfl
@[simp] theorem refuse_ctl_linkerr (s : State) : (refuse s).ctl.linkerr = s.ctl.linkerr := rfl
@[simp] theorem refuse_ctl_cmderr (s : State) :
    (refuse s).ctl.cmderr = true := rfl
@[simp] theorem refuse_cnt (s : State) : (refuse s).cnt = s.cnt := rfl
@[simp] theorem refuse_env (s : State) : (refuse s).env = s.env := rfl

/-! ### startTx -/

@[simp] theorem startTx_params (frame : List Byte) (next : TxNext) (s : State) : (startTx frame next s).params = s.params := rfl
@[simp] theorem startTx_seq_muxState (frame : List Byte) (next : TxNext) (s : State) :
    (startTx frame next s).seq.muxState = .tx := rfl
@[simp] theorem startTx_seq_curOp (frame : List Byte) (next : TxNext) (s : State) : (startTx frame next s).seq.curOp = s.seq.curOp := rfl
@[simp] theorem startTx_seq_txNext (frame : List Byte) (next : TxNext) (s : State) :
    (startTx frame next s).seq.txNext = next := rfl
@[simp] theorem startTx_seq_abortPending (frame : List Byte) (next : TxNext) (s : State) : (startTx frame next s).seq.abortPending = s.seq.abortPending := rfl
@[simp] theorem startTx_seq_enumD (frame : List Byte) (next : TxNext) (s : State) : (startTx frame next s).seq.enumD = s.seq.enumD := rfl
@[simp] theorem startTx_seq_pollT (frame : List Byte) (next : TxNext) (s : State) : (startTx frame next s).seq.pollT = s.seq.pollT := rfl
@[simp] theorem startTx_seq_pollD (frame : List Byte) (next : TxNext) (s : State) : (startTx frame next s).seq.pollD = s.seq.pollD := rfl
@[simp] theorem startTx_seq_pollK (frame : List Byte) (next : TxNext) (s : State) : (startTx frame next s).seq.pollK = s.seq.pollK := rfl
@[simp] theorem startTx_tx_buf (frame : List Byte) (next : TxNext) (s : State) :
    (startTx frame next s).tx.buf = Memory.writeBytes s.tx.buf 0 frame := rfl
@[simp] theorem startTx_tx_len (frame : List Byte) (next : TxNext) (s : State) :
    (startTx frame next s).tx.len = BitVec.ofNat 9 frame.length := rfl
@[simp] theorem startTx_tx_idx (frame : List Byte) (next : TxNext) (s : State) :
    (startTx frame next s).tx.idx = 0 := rfl
@[simp] theorem startTx_rx (frame : List Byte) (next : TxNext) (s : State) : (startTx frame next s).rx = s.rx := rfl
@[simp] theorem startTx_acc (frame : List Byte) (next : TxNext) (s : State) : (startTx frame next s).acc = s.acc := rfl
@[simp] theorem startTx_tab (frame : List Byte) (next : TxNext) (s : State) : (startTx frame next s).tab = s.tab := rfl
@[simp] theorem startTx_resp (frame : List Byte) (next : TxNext) (s : State) : (startTx frame next s).resp = s.resp := rfl
@[simp] theorem startTx_ctl (frame : List Byte) (next : TxNext) (s : State) : (startTx frame next s).ctl = s.ctl := rfl
@[simp] theorem startTx_cnt (frame : List Byte) (next : TxNext) (s : State) : (startTx frame next s).cnt = s.cnt := rfl
@[simp] theorem startTx_env (frame : List Byte) (next : TxNext) (s : State) : (startTx frame next s).env = s.env := rfl

/-! ### reasmClear -/

@[simp] theorem reasmClear_params (s : State) : (reasmClear s).params = s.params := rfl
@[simp] theorem reasmClear_seq (s : State) : (reasmClear s).seq = s.seq := rfl
@[simp] theorem reasmClear_tx (s : State) : (reasmClear s).tx = s.tx := rfl
@[simp] theorem reasmClear_rx (s : State) : (reasmClear s).rx = s.rx := rfl
@[simp] theorem reasmClear_acc_valid (s : State) :
    (reasmClear s).acc.valid = false := rfl
@[simp] theorem reasmClear_acc_src (s : State) : (reasmClear s).acc.src = s.acc.src := rfl
@[simp] theorem reasmClear_acc_dst (s : State) : (reasmClear s).acc.dst = s.acc.dst := rfl
@[simp] theorem reasmClear_acc_ctl (s : State) : (reasmClear s).acc.ctl = s.acc.ctl := rfl
@[simp] theorem reasmClear_acc_cmd (s : State) : (reasmClear s).acc.cmd = s.acc.cmd := rfl
@[simp] theorem reasmClear_acc_pkt (s : State) : (reasmClear s).acc.pkt = s.acc.pkt := rfl
@[simp] theorem reasmClear_acc_len (s : State) : (reasmClear s).acc.len = s.acc.len := rfl
@[simp] theorem reasmClear_acc_buf (s : State) : (reasmClear s).acc.buf = s.acc.buf := rfl
@[simp] theorem reasmClear_tab (s : State) : (reasmClear s).tab = s.tab := rfl
@[simp] theorem reasmClear_resp (s : State) : (reasmClear s).resp = s.resp := rfl
@[simp] theorem reasmClear_ctl (s : State) : (reasmClear s).ctl = s.ctl := rfl
@[simp] theorem reasmClear_cnt (s : State) : (reasmClear s).cnt = s.cnt := rfl
@[simp] theorem reasmClear_env (s : State) : (reasmClear s).env = s.env := rfl

/-! ### emitByte -/

@[simp] theorem emitByte_params (s : State) : (emitByte s).params = s.params := rfl
@[simp] theorem emitByte_seq (s : State) : (emitByte s).seq = s.seq := rfl
@[simp] theorem emitByte_tx_buf (s : State) : (emitByte s).tx.buf = s.tx.buf := rfl
@[simp] theorem emitByte_tx_len (s : State) : (emitByte s).tx.len = s.tx.len := rfl
@[simp] theorem emitByte_tx_idx (s : State) :
    (emitByte s).tx.idx = s.tx.idx + 1 := rfl
@[simp] theorem emitByte_rx (s : State) : (emitByte s).rx = s.rx := rfl
@[simp] theorem emitByte_acc (s : State) : (emitByte s).acc = s.acc := rfl
@[simp] theorem emitByte_tab (s : State) : (emitByte s).tab = s.tab := rfl
@[simp] theorem emitByte_resp (s : State) : (emitByte s).resp = s.resp := rfl
@[simp] theorem emitByte_ctl (s : State) : (emitByte s).ctl = s.ctl := rfl
@[simp] theorem emitByte_cnt (s : State) : (emitByte s).cnt = s.cnt := rfl
@[simp] theorem emitByte_env_inputs (s : State) : (emitByte s).env.inputs = s.env.inputs := rfl
@[simp] theorem emitByte_env_txStream (s : State) :
    (emitByte s).env.txStream = s.env.txStream ++ [Memory.read s.tx.buf s.tx.idx.toNat] := rfl
@[simp] theorem emitByte_env_rxStream (s : State) : (emitByte s).env.rxStream = s.env.rxStream := rfl
@[simp] theorem emitByte_env_readData (s : State) : (emitByte s).env.readData = s.env.readData := rfl

/-! ### countUnsolicited -/

@[simp] theorem countUnsolicited_params (s : State) : (countUnsolicited s).params = s.params := rfl
@[simp] theorem countUnsolicited_seq (s : State) : (countUnsolicited s).seq = s.seq := rfl
@[simp] theorem countUnsolicited_tx (s : State) : (countUnsolicited s).tx = s.tx := rfl
@[simp] theorem countUnsolicited_rx (s : State) : (countUnsolicited s).rx = s.rx := rfl
@[simp] theorem countUnsolicited_acc (s : State) : (countUnsolicited s).acc = s.acc := rfl
@[simp] theorem countUnsolicited_tab (s : State) : (countUnsolicited s).tab = s.tab := rfl
@[simp] theorem countUnsolicited_resp (s : State) : (countUnsolicited s).resp = s.resp := rfl
@[simp] theorem countUnsolicited_ctl (s : State) : (countUnsolicited s).ctl = s.ctl := rfl
@[simp] theorem countUnsolicited_cnt_mal (s : State) : (countUnsolicited s).cnt.mal = s.cnt.mal := rfl
@[simp] theorem countUnsolicited_cnt_len (s : State) : (countUnsolicited s).cnt.len = s.cnt.len := rfl
@[simp] theorem countUnsolicited_cnt_csum (s : State) : (countUnsolicited s).cnt.csum = s.cnt.csum := rfl
@[simp] theorem countUnsolicited_cnt_unsol (s : State) :
    (countUnsolicited s).cnt.unsol = s.cnt.unsol + 1 := rfl
@[simp] theorem countUnsolicited_cnt_frag (s : State) : (countUnsolicited s).cnt.frag = s.cnt.frag := rfl
@[simp] theorem countUnsolicited_cnt_lastFrameErr (s : State) : (countUnsolicited s).cnt.lastFrameErr = s.cnt.lastFrameErr := rfl
@[simp] theorem countUnsolicited_env (s : State) : (countUnsolicited s).env = s.env := rfl

/-! ### countFragment -/

@[simp] theorem countFragment_params (s : State) : (countFragment s).params = s.params := rfl
@[simp] theorem countFragment_seq (s : State) : (countFragment s).seq = s.seq := rfl
@[simp] theorem countFragment_tx (s : State) : (countFragment s).tx = s.tx := rfl
@[simp] theorem countFragment_rx (s : State) : (countFragment s).rx = s.rx := rfl
@[simp] theorem countFragment_acc (s : State) : (countFragment s).acc = s.acc := rfl
@[simp] theorem countFragment_tab (s : State) : (countFragment s).tab = s.tab := rfl
@[simp] theorem countFragment_resp (s : State) : (countFragment s).resp = s.resp := rfl
@[simp] theorem countFragment_ctl (s : State) : (countFragment s).ctl = s.ctl := rfl
@[simp] theorem countFragment_cnt_mal (s : State) : (countFragment s).cnt.mal = s.cnt.mal := rfl
@[simp] theorem countFragment_cnt_len (s : State) : (countFragment s).cnt.len = s.cnt.len := rfl
@[simp] theorem countFragment_cnt_csum (s : State) : (countFragment s).cnt.csum = s.cnt.csum := rfl
@[simp] theorem countFragment_cnt_unsol (s : State) : (countFragment s).cnt.unsol = s.cnt.unsol := rfl
@[simp] theorem countFragment_cnt_frag (s : State) :
    (countFragment s).cnt.frag = s.cnt.frag + 1 := rfl
@[simp] theorem countFragment_cnt_lastFrameErr (s : State) : (countFragment s).cnt.lastFrameErr = s.cnt.lastFrameErr := rfl
@[simp] theorem countFragment_env (s : State) : (countFragment s).env = s.env := rfl

/-! ### storeResponse -/

@[simp] theorem storeResponse_params (r : Response) (s : State) : (storeResponse r s).params = s.params := rfl
@[simp] theorem storeResponse_seq (r : Response) (s : State) : (storeResponse r s).seq = s.seq := rfl
@[simp] theorem storeResponse_tx (r : Response) (s : State) : (storeResponse r s).tx = s.tx := rfl
@[simp] theorem storeResponse_rx (r : Response) (s : State) : (storeResponse r s).rx = s.rx := rfl
@[simp] theorem storeResponse_acc (r : Response) (s : State) : (storeResponse r s).acc = s.acc := rfl
@[simp] theorem storeResponse_tab (r : Response) (s : State) : (storeResponse r s).tab = s.tab := rfl
@[simp] theorem storeResponse_resp_valid (r : Response) (s : State) :
    (storeResponse r s).resp.valid = true := rfl
@[simp] theorem storeResponse_resp_code (r : Response) (s : State) :
    (storeResponse r s).resp.code = Code.ok.bits := rfl
@[simp] theorem storeResponse_resp_dev (r : Response) (s : State) : (storeResponse r s).resp.dev = s.resp.dev := rfl
@[simp] theorem storeResponse_resp_slot (r : Response) (s : State) : (storeResponse r s).resp.slot = s.resp.slot := rfl
@[simp] theorem storeResponse_resp_src (r : Response) (s : State) :
    (storeResponse r s).resp.src = r.src := rfl
@[simp] theorem storeResponse_resp_dst (r : Response) (s : State) :
    (storeResponse r s).resp.dst = r.dst := rfl
@[simp] theorem storeResponse_resp_ctl (r : Response) (s : State) :
    (storeResponse r s).resp.ctl = r.ctl := rfl
@[simp] theorem storeResponse_resp_cmd (r : Response) (s : State) :
    (storeResponse r s).resp.cmd = r.cmd := rfl
@[simp] theorem storeResponse_resp_len (r : Response) (s : State) :
    (storeResponse r s).resp.len = BitVec.ofNat 13 r.payload.length := rfl
@[simp] theorem storeResponse_resp_buf (r : Response) (s : State) :
    (storeResponse r s).resp.buf = Memory.writeBytes s.resp.buf 0 r.payload := rfl
@[simp] theorem storeResponse_ctl (r : Response) (s : State) : (storeResponse r s).ctl = s.ctl := rfl
@[simp] theorem storeResponse_cnt (r : Response) (s : State) : (storeResponse r s).cnt = s.cnt := rfl
@[simp] theorem storeResponse_env (r : Response) (s : State) : (storeResponse r s).env = s.env := rfl

/-! ### storeFailure -/

@[simp] theorem storeFailure_params (c : Code) (s : State) : (storeFailure c s).params = s.params := rfl
@[simp] theorem storeFailure_seq (c : Code) (s : State) : (storeFailure c s).seq = s.seq := rfl
@[simp] theorem storeFailure_tx (c : Code) (s : State) : (storeFailure c s).tx = s.tx := rfl
@[simp] theorem storeFailure_rx (c : Code) (s : State) : (storeFailure c s).rx = s.rx := rfl
@[simp] theorem storeFailure_acc (c : Code) (s : State) : (storeFailure c s).acc = s.acc := rfl
@[simp] theorem storeFailure_tab (c : Code) (s : State) : (storeFailure c s).tab = s.tab := rfl
@[simp] theorem storeFailure_resp_valid (c : Code) (s : State) :
    (storeFailure c s).resp.valid = true := rfl
@[simp] theorem storeFailure_resp_code (c : Code) (s : State) :
    (storeFailure c s).resp.code = c.bits := rfl
@[simp] theorem storeFailure_resp_dev (c : Code) (s : State) : (storeFailure c s).resp.dev = s.resp.dev := rfl
@[simp] theorem storeFailure_resp_slot (c : Code) (s : State) : (storeFailure c s).resp.slot = s.resp.slot := rfl
@[simp] theorem storeFailure_resp_src (c : Code) (s : State) :
    (storeFailure c s).resp.src = 0 := rfl
@[simp] theorem storeFailure_resp_dst (c : Code) (s : State) :
    (storeFailure c s).resp.dst = 0 := rfl
@[simp] theorem storeFailure_resp_ctl (c : Code) (s : State) :
    (storeFailure c s).resp.ctl = 0 := rfl
@[simp] theorem storeFailure_resp_cmd (c : Code) (s : State) :
    (storeFailure c s).resp.cmd = 0 := rfl
@[simp] theorem storeFailure_resp_len (c : Code) (s : State) :
    (storeFailure c s).resp.len = 0 := rfl
@[simp] theorem storeFailure_resp_buf (c : Code) (s : State) : (storeFailure c s).resp.buf = s.resp.buf := rfl
@[simp] theorem storeFailure_ctl (c : Code) (s : State) : (storeFailure c s).ctl = s.ctl := rfl
@[simp] theorem storeFailure_cnt (c : Code) (s : State) : (storeFailure c s).cnt = s.cnt := rfl
@[simp] theorem storeFailure_env (c : Code) (s : State) : (storeFailure c s).env = s.env := rfl

/-! ### setDevice -/

@[simp] theorem setDevice_params (i : Nat) (d : Device) (s : State) : (setDevice i d s).params = s.params := rfl
@[simp] theorem setDevice_seq (i : Nat) (d : Device) (s : State) : (setDevice i d s).seq = s.seq := rfl
@[simp] theorem setDevice_tx (i : Nat) (d : Device) (s : State) : (setDevice i d s).tx = s.tx := rfl
@[simp] theorem setDevice_rx (i : Nat) (d : Device) (s : State) : (setDevice i d s).rx = s.rx := rfl
@[simp] theorem setDevice_acc (i : Nat) (d : Device) (s : State) : (setDevice i d s).acc = s.acc := rfl
@[simp] theorem setDevice_tab_devCount (i : Nat) (d : Device) (s : State) : (setDevice i d s).tab.devCount = s.tab.devCount := rfl
@[simp] theorem setDevice_tab_dev (i : Nat) (d : Device) (s : State) :
    (setDevice i d s).tab.dev = s.tab.dev.setIfInBounds i d := rfl
@[simp] theorem setDevice_tab_crt (i : Nat) (d : Device) (s : State) : (setDevice i d s).tab.crt = s.tab.crt := rfl
@[simp] theorem setDevice_resp (i : Nat) (d : Device) (s : State) : (setDevice i d s).resp = s.resp := rfl
@[simp] theorem setDevice_ctl (i : Nat) (d : Device) (s : State) : (setDevice i d s).ctl = s.ctl := rfl
@[simp] theorem setDevice_cnt (i : Nat) (d : Device) (s : State) : (setDevice i d s).cnt = s.cnt := rfl
@[simp] theorem setDevice_env (i : Nat) (d : Device) (s : State) : (setDevice i d s).env = s.env := rfl

/-! ### setSlot -/

@[simp] theorem setSlot_params (i k : Nat) (c : Slot) (s : State) : (setSlot i k c s).params = s.params := rfl
@[simp] theorem setSlot_seq (i k : Nat) (c : Slot) (s : State) : (setSlot i k c s).seq = s.seq := rfl
@[simp] theorem setSlot_tx (i k : Nat) (c : Slot) (s : State) : (setSlot i k c s).tx = s.tx := rfl
@[simp] theorem setSlot_rx (i k : Nat) (c : Slot) (s : State) : (setSlot i k c s).rx = s.rx := rfl
@[simp] theorem setSlot_acc (i k : Nat) (c : Slot) (s : State) : (setSlot i k c s).acc = s.acc := rfl
@[simp] theorem setSlot_tab_devCount (i k : Nat) (c : Slot) (s : State) : (setSlot i k c s).tab.devCount = s.tab.devCount := rfl
@[simp] theorem setSlot_tab_dev (i k : Nat) (c : Slot) (s : State) : (setSlot i k c s).tab.dev = s.tab.dev := rfl
@[simp] theorem setSlot_tab_crt (i k : Nat) (c : Slot) (s : State) :
    (setSlot i k c s).tab.crt = s.tab.crt.setIfInBounds i ((slotRow s i).setIfInBounds k c) := rfl
@[simp] theorem setSlot_resp (i k : Nat) (c : Slot) (s : State) : (setSlot i k c s).resp = s.resp := rfl
@[simp] theorem setSlot_ctl (i k : Nat) (c : Slot) (s : State) : (setSlot i k c s).ctl = s.ctl := rfl
@[simp] theorem setSlot_cnt (i k : Nat) (c : Slot) (s : State) : (setSlot i k c s).cnt = s.cnt := rfl
@[simp] theorem setSlot_env (i k : Nat) (c : Slot) (s : State) : (setSlot i k c s).env = s.env := rfl

/-! ### reasmState -/

@[simp] theorem reasmState_params (f : Frame) (s : State) : (reasmState f s).params = s.params := rfl
@[simp] theorem reasmState_seq (f : Frame) (s : State) : (reasmState f s).seq = s.seq := rfl
@[simp] theorem reasmState_tx (f : Frame) (s : State) : (reasmState f s).tx = s.tx := rfl
@[simp] theorem reasmState_rx (f : Frame) (s : State) : (reasmState f s).rx = s.rx := rfl
@[simp] theorem reasmState_acc (f : Frame) (s : State) : (reasmState f s).acc = (reasmStep s.params.reasmMax f s.acc).1 := rfl
@[simp] theorem reasmState_tab (f : Frame) (s : State) : (reasmState f s).tab = s.tab := rfl
@[simp] theorem reasmState_resp (f : Frame) (s : State) : (reasmState f s).resp = s.resp := rfl
@[simp] theorem reasmState_ctl (f : Frame) (s : State) : (reasmState f s).ctl = s.ctl := rfl
@[simp] theorem reasmState_cnt (f : Frame) (s : State) : (reasmState f s).cnt = s.cnt := rfl
@[simp] theorem reasmState_env (f : Frame) (s : State) : (reasmState f s).env = s.env := rfl

/-! ### setCursor -/

@[simp] theorem setCursor_params (d k : Nat) (s : State) : (setCursor d k s).params = s.params := rfl
@[simp] theorem setCursor_seq_muxState (d k : Nat) (s : State) : (setCursor d k s).seq.muxState = s.seq.muxState := rfl
@[simp] theorem setCursor_seq_curOp (d k : Nat) (s : State) : (setCursor d k s).seq.curOp = s.seq.curOp := rfl
@[simp] theorem setCursor_seq_txNext (d k : Nat) (s : State) : (setCursor d k s).seq.txNext = s.seq.txNext := rfl
@[simp] theorem setCursor_seq_abortPending (d k : Nat) (s : State) : (setCursor d k s).seq.abortPending = s.seq.abortPending := rfl
@[simp] theorem setCursor_seq_enumD (d k : Nat) (s : State) : (setCursor d k s).seq.enumD = s.seq.enumD := rfl
@[simp] theorem setCursor_seq_pollT (d k : Nat) (s : State) : (setCursor d k s).seq.pollT = s.seq.pollT := rfl
@[simp] theorem setCursor_seq_pollD (d k : Nat) (s : State) :
    (setCursor d k s).seq.pollD = BitVec.ofNat 5 d := rfl
@[simp] theorem setCursor_seq_pollK (d k : Nat) (s : State) :
    (setCursor d k s).seq.pollK = BitVec.ofNat 3 k := rfl
@[simp] theorem setCursor_tx (d k : Nat) (s : State) : (setCursor d k s).tx = s.tx := rfl
@[simp] theorem setCursor_rx (d k : Nat) (s : State) : (setCursor d k s).rx = s.rx := rfl
@[simp] theorem setCursor_acc (d k : Nat) (s : State) : (setCursor d k s).acc = s.acc := rfl
@[simp] theorem setCursor_tab (d k : Nat) (s : State) : (setCursor d k s).tab = s.tab := rfl
@[simp] theorem setCursor_resp (d k : Nat) (s : State) : (setCursor d k s).resp = s.resp := rfl
@[simp] theorem setCursor_ctl (d k : Nat) (s : State) : (setCursor d k s).ctl = s.ctl := rfl
@[simp] theorem setCursor_cnt (d k : Nat) (s : State) : (setCursor d k s).cnt = s.cnt := rfl
@[simp] theorem setCursor_env (d k : Nat) (s : State) : (setCursor d k s).env = s.env := rfl

/-! ### latchDevice -/

@[simp] theorem latchDevice_params (i : Nat) (s : State) : (latchDevice i s).params = s.params := rfl
@[simp] theorem latchDevice_seq_muxState (i : Nat) (s : State) : (latchDevice i s).seq.muxState = s.seq.muxState := rfl
@[simp] theorem latchDevice_seq_curOp (i : Nat) (s : State) : (latchDevice i s).seq.curOp = s.seq.curOp := rfl
@[simp] theorem latchDevice_seq_txNext (i : Nat) (s : State) : (latchDevice i s).seq.txNext = s.seq.txNext := rfl
@[simp] theorem latchDevice_seq_abortPending (i : Nat) (s : State) : (latchDevice i s).seq.abortPending = s.seq.abortPending := rfl
@[simp] theorem latchDevice_seq_enumD (i : Nat) (s : State) :
    (latchDevice i s).seq.enumD = BitVec.ofNat 4 i := rfl
@[simp] theorem latchDevice_seq_pollT (i : Nat) (s : State) : (latchDevice i s).seq.pollT = s.seq.pollT := rfl
@[simp] theorem latchDevice_seq_pollD (i : Nat) (s : State) : (latchDevice i s).seq.pollD = s.seq.pollD := rfl
@[simp] theorem latchDevice_seq_pollK (i : Nat) (s : State) : (latchDevice i s).seq.pollK = s.seq.pollK := rfl
@[simp] theorem latchDevice_tx (i : Nat) (s : State) : (latchDevice i s).tx = s.tx := rfl
@[simp] theorem latchDevice_rx (i : Nat) (s : State) : (latchDevice i s).rx = s.rx := rfl
@[simp] theorem latchDevice_acc (i : Nat) (s : State) : (latchDevice i s).acc = s.acc := rfl
@[simp] theorem latchDevice_tab (i : Nat) (s : State) : (latchDevice i s).tab = s.tab := rfl
@[simp] theorem latchDevice_resp (i : Nat) (s : State) : (latchDevice i s).resp = s.resp := rfl
@[simp] theorem latchDevice_ctl (i : Nat) (s : State) : (latchDevice i s).ctl = s.ctl := rfl
@[simp] theorem latchDevice_cnt (i : Nat) (s : State) : (latchDevice i s).cnt = s.cnt := rfl
@[simp] theorem latchDevice_env (i : Nat) (s : State) : (latchDevice i s).env = s.env := rfl

/-! ### latchPoll -/

@[simp] theorem latchPoll_params (t : Word) (s : State) : (latchPoll t s).params = s.params := rfl
@[simp] theorem latchPoll_seq_muxState (t : Word) (s : State) : (latchPoll t s).seq.muxState = s.seq.muxState := rfl
@[simp] theorem latchPoll_seq_curOp (t : Word) (s : State) : (latchPoll t s).seq.curOp = s.seq.curOp := rfl
@[simp] theorem latchPoll_seq_txNext (t : Word) (s : State) : (latchPoll t s).seq.txNext = s.seq.txNext := rfl
@[simp] theorem latchPoll_seq_abortPending (t : Word) (s : State) : (latchPoll t s).seq.abortPending = s.seq.abortPending := rfl
@[simp] theorem latchPoll_seq_enumD (t : Word) (s : State) : (latchPoll t s).seq.enumD = s.seq.enumD := rfl
@[simp] theorem latchPoll_seq_pollT (t : Word) (s : State) :
    (latchPoll t s).seq.pollT = t := rfl
@[simp] theorem latchPoll_seq_pollD (t : Word) (s : State) :
    (latchPoll t s).seq.pollD = 0 := rfl
@[simp] theorem latchPoll_seq_pollK (t : Word) (s : State) :
    (latchPoll t s).seq.pollK = 0 := rfl
@[simp] theorem latchPoll_tx (t : Word) (s : State) : (latchPoll t s).tx = s.tx := rfl
@[simp] theorem latchPoll_rx (t : Word) (s : State) : (latchPoll t s).rx = s.rx := rfl
@[simp] theorem latchPoll_acc (t : Word) (s : State) : (latchPoll t s).acc = s.acc := rfl
@[simp] theorem latchPoll_tab (t : Word) (s : State) : (latchPoll t s).tab = s.tab := rfl
@[simp] theorem latchPoll_resp (t : Word) (s : State) : (latchPoll t s).resp = s.resp := rfl
@[simp] theorem latchPoll_ctl (t : Word) (s : State) : (latchPoll t s).ctl = s.ctl := rfl
@[simp] theorem latchPoll_cnt (t : Word) (s : State) : (latchPoll t s).cnt = s.cnt := rfl
@[simp] theorem latchPoll_env (t : Word) (s : State) : (latchPoll t s).env = s.env := rfl

/-! ### clearTables -/

@[simp] theorem clearTables_params (s : State) : (clearTables s).params = s.params := rfl
@[simp] theorem clearTables_seq (s : State) : (clearTables s).seq = s.seq := rfl
@[simp] theorem clearTables_tx (s : State) : (clearTables s).tx = s.tx := rfl
@[simp] theorem clearTables_rx (s : State) : (clearTables s).rx = s.rx := rfl
@[simp] theorem clearTables_acc (s : State) : (clearTables s).acc = s.acc := rfl
@[simp] theorem clearTables_tab_devCount (s : State) :
    (clearTables s).tab.devCount = 0 := rfl
@[simp] theorem clearTables_tab_dev (s : State) :
    (clearTables s).tab.dev = Vector.replicate 16 Device.zero := rfl
@[simp] theorem clearTables_resp (s : State) : (clearTables s).resp = s.resp := rfl
@[simp] theorem clearTables_ctl_ie (s : State) : (clearTables s).ctl.ie = s.ctl.ie := rfl
@[simp] theorem clearTables_ctl_arg (s : State) : (clearTables s).ctl.arg = s.ctl.arg := rfl
@[simp] theorem clearTables_ctl_done (s : State) : (clearTables s).ctl.done = s.ctl.done := rfl
@[simp] theorem clearTables_ctl_err (s : State) : (clearTables s).ctl.err = s.ctl.err := rfl
@[simp] theorem clearTables_ctl_devovf (s : State) :
    (clearTables s).ctl.devovf = false := rfl
@[simp] theorem clearTables_ctl_linkerr (s : State) : (clearTables s).ctl.linkerr = s.ctl.linkerr := rfl
@[simp] theorem clearTables_ctl_cmderr (s : State) : (clearTables s).ctl.cmderr = s.ctl.cmderr := rfl
@[simp] theorem clearTables_cnt (s : State) : (clearTables s).cnt = s.cnt := rfl
@[simp] theorem clearTables_env (s : State) : (clearTables s).env = s.env := rfl

/-! ### closeBuffer -/

@[simp] theorem closeBuffer_params (s : State) : (closeBuffer s).params = s.params := rfl
@[simp] theorem closeBuffer_seq (s : State) : (closeBuffer s).seq = s.seq := rfl
@[simp] theorem closeBuffer_tx (s : State) : (closeBuffer s).tx = s.tx := rfl
@[simp] theorem closeBuffer_rx_state (s : State) :
    (closeBuffer s).rx.state = .idle := rfl
@[simp] theorem closeBuffer_rx_l1 (s : State) : (closeBuffer s).rx.l1 = s.rx.l1 := rfl
@[simp] theorem closeBuffer_rx_l2 (s : State) : (closeBuffer s).rx.l2 = s.rx.l2 := rfl
@[simp] theorem closeBuffer_rx_lenmis (s : State) : (closeBuffer s).rx.lenmis = s.rx.lenmis := rfl
@[simp] theorem closeBuffer_rx_sum (s : State) : (closeBuffer s).rx.sum = s.rx.sum := rfl
@[simp] theorem closeBuffer_rx_cnt (s : State) : (closeBuffer s).rx.cnt = s.rx.cnt := rfl
@[simp] theorem closeBuffer_rx_src (s : State) : (closeBuffer s).rx.src = s.rx.src := rfl
@[simp] theorem closeBuffer_rx_dst (s : State) : (closeBuffer s).rx.dst = s.rx.dst := rfl
@[simp] theorem closeBuffer_rx_ctl (s : State) : (closeBuffer s).rx.ctl = s.rx.ctl := rfl
@[simp] theorem closeBuffer_rx_pkt (s : State) : (closeBuffer s).rx.pkt = s.rx.pkt := rfl
@[simp] theorem closeBuffer_rx_cmd (s : State) : (closeBuffer s).rx.cmd = s.rx.cmd := rfl
@[simp] theorem closeBuffer_rx_crc (s : State) : (closeBuffer s).rx.crc = s.rx.crc := rfl
@[simp] theorem closeBuffer_rx_pay (s : State) : (closeBuffer s).rx.pay = s.rx.pay := rfl
@[simp] theorem closeBuffer_acc (s : State) : (closeBuffer s).acc = s.acc := rfl
@[simp] theorem closeBuffer_tab (s : State) : (closeBuffer s).tab = s.tab := rfl
@[simp] theorem closeBuffer_resp (s : State) : (closeBuffer s).resp = s.resp := rfl
@[simp] theorem closeBuffer_ctl (s : State) : (closeBuffer s).ctl = s.ctl := rfl
@[simp] theorem closeBuffer_cnt (s : State) : (closeBuffer s).cnt = s.cnt := rfl
@[simp] theorem closeBuffer_env (s : State) : (closeBuffer s).env = s.env := rfl

/-! ### doRxByte -/

@[simp] theorem doRxByte_params (b : Byte) (s : State) : (doRxByte b s).params = s.params := rfl
@[simp] theorem doRxByte_seq (b : Byte) (s : State) : (doRxByte b s).seq = s.seq := rfl
@[simp] theorem doRxByte_tx (b : Byte) (s : State) : (doRxByte b s).tx = s.tx := rfl
@[simp] theorem doRxByte_rx (b : Byte) (s : State) : (doRxByte b s).rx = parseByte s.rx b := rfl
@[simp] theorem doRxByte_acc (b : Byte) (s : State) : (doRxByte b s).acc = s.acc := rfl
@[simp] theorem doRxByte_tab (b : Byte) (s : State) : (doRxByte b s).tab = s.tab := rfl
@[simp] theorem doRxByte_resp (b : Byte) (s : State) : (doRxByte b s).resp = s.resp := rfl
@[simp] theorem doRxByte_ctl (b : Byte) (s : State) : (doRxByte b s).ctl = s.ctl := rfl
@[simp] theorem doRxByte_cnt (b : Byte) (s : State) : (doRxByte b s).cnt = s.cnt := rfl
@[simp] theorem doRxByte_env_inputs (b : Byte) (s : State) : (doRxByte b s).env.inputs = s.env.inputs := rfl
@[simp] theorem doRxByte_env_txStream (b : Byte) (s : State) : (doRxByte b s).env.txStream = s.env.txStream := rfl
@[simp] theorem doRxByte_env_rxStream (b : Byte) (s : State) :
    (doRxByte b s).env.rxStream = s.env.rxStream ++ [b] := rfl
@[simp] theorem doRxByte_env_readData (b : Byte) (s : State) : (doRxByte b s).env.readData = s.env.readData := rfl

/-! ### doHostRead -/

@[simp] theorem doHostRead_params (off : Offset) (s : State) : (doHostRead off s).params = s.params := rfl
@[simp] theorem doHostRead_seq (off : Offset) (s : State) : (doHostRead off s).seq = s.seq := rfl
@[simp] theorem doHostRead_tx (off : Offset) (s : State) : (doHostRead off s).tx = s.tx := rfl
@[simp] theorem doHostRead_rx (off : Offset) (s : State) : (doHostRead off s).rx = s.rx := rfl
@[simp] theorem doHostRead_acc (off : Offset) (s : State) : (doHostRead off s).acc = s.acc := rfl
@[simp] theorem doHostRead_tab (off : Offset) (s : State) : (doHostRead off s).tab = s.tab := rfl
@[simp] theorem doHostRead_resp (off : Offset) (s : State) : (doHostRead off s).resp = s.resp := rfl
@[simp] theorem doHostRead_ctl (off : Offset) (s : State) : (doHostRead off s).ctl = s.ctl := rfl
@[simp] theorem doHostRead_cnt (off : Offset) (s : State) : (doHostRead off s).cnt = s.cnt := rfl
@[simp] theorem doHostRead_env_inputs (off : Offset) (s : State) : (doHostRead off s).env.inputs = s.env.inputs := rfl
@[simp] theorem doHostRead_env_txStream (off : Offset) (s : State) : (doHostRead off s).env.txStream = s.env.txStream := rfl
@[simp] theorem doHostRead_env_rxStream (off : Offset) (s : State) : (doHostRead off s).env.rxStream = s.env.rxStream := rfl
@[simp] theorem doHostRead_env_readData (off : Offset) (s : State) :
    (doHostRead off s).env.readData = hostRead s off := rfl

/-! ### setInputs -/

@[simp] theorem setInputs_params (es : List Event) (s : State) : (setInputs es s).params = s.params := rfl
@[simp] theorem setInputs_seq (es : List Event) (s : State) : (setInputs es s).seq = s.seq := rfl
@[simp] theorem setInputs_tx (es : List Event) (s : State) : (setInputs es s).tx = s.tx := rfl
@[simp] theorem setInputs_rx (es : List Event) (s : State) : (setInputs es s).rx = s.rx := rfl
@[simp] theorem setInputs_acc (es : List Event) (s : State) : (setInputs es s).acc = s.acc := rfl
@[simp] theorem setInputs_tab (es : List Event) (s : State) : (setInputs es s).tab = s.tab := rfl
@[simp] theorem setInputs_resp (es : List Event) (s : State) : (setInputs es s).resp = s.resp := rfl
@[simp] theorem setInputs_ctl (es : List Event) (s : State) : (setInputs es s).ctl = s.ctl := rfl
@[simp] theorem setInputs_cnt (es : List Event) (s : State) : (setInputs es s).cnt = s.cnt := rfl
@[simp] theorem setInputs_env_inputs (es : List Event) (s : State) :
    (setInputs es s).env.inputs = es := rfl
@[simp] theorem setInputs_env_txStream (es : List Event) (s : State) : (setInputs es s).env.txStream = s.env.txStream := rfl
@[simp] theorem setInputs_env_rxStream (es : List Event) (s : State) : (setInputs es s).env.rxStream = s.env.rxStream := rfl
@[simp] theorem setInputs_env_readData (es : List Event) (s : State) : (setInputs es s).env.readData = s.env.readData := rfl

/-! ### writeStatus -/

@[simp] theorem writeStatus_params (w : Word) (s : State) : (writeStatus w s).params = s.params := rfl
@[simp] theorem writeStatus_seq (w : Word) (s : State) : (writeStatus w s).seq = s.seq := rfl
@[simp] theorem writeStatus_tx (w : Word) (s : State) : (writeStatus w s).tx = s.tx := rfl
@[simp] theorem writeStatus_rx (w : Word) (s : State) : (writeStatus w s).rx = s.rx := rfl
@[simp] theorem writeStatus_acc (w : Word) (s : State) : (writeStatus w s).acc = s.acc := rfl
@[simp] theorem writeStatus_tab (w : Word) (s : State) : (writeStatus w s).tab = s.tab := rfl
@[simp] theorem writeStatus_resp (w : Word) (s : State) : (writeStatus w s).resp = s.resp := rfl
@[simp] theorem writeStatus_ctl_ie (w : Word) (s : State) : (writeStatus w s).ctl.ie = s.ctl.ie := rfl
@[simp] theorem writeStatus_ctl_arg (w : Word) (s : State) : (writeStatus w s).ctl.arg = s.ctl.arg := rfl
@[simp] theorem writeStatus_ctl_done (w : Word) (s : State) :
    (writeStatus w s).ctl.done = (s.ctl.done && !w.getLsbD 1) := rfl
@[simp] theorem writeStatus_ctl_err (w : Word) (s : State) : (writeStatus w s).ctl.err = s.ctl.err := rfl
@[simp] theorem writeStatus_ctl_devovf (w : Word) (s : State) :
    (writeStatus w s).ctl.devovf = (s.ctl.devovf && !w.getLsbD 3) := rfl
@[simp] theorem writeStatus_ctl_linkerr (w : Word) (s : State) :
    (writeStatus w s).ctl.linkerr = (s.ctl.linkerr && !w.getLsbD 4) := rfl
@[simp] theorem writeStatus_ctl_cmderr (w : Word) (s : State) :
    (writeStatus w s).ctl.cmderr = (s.ctl.cmderr && !w.getLsbD 5) := rfl
@[simp] theorem writeStatus_cnt (w : Word) (s : State) : (writeStatus w s).cnt = s.cnt := rfl
@[simp] theorem writeStatus_env (w : Word) (s : State) : (writeStatus w s).env = s.env := rfl

/-! ### resetState -/

@[simp] theorem resetState_params (s : State) : (resetState s).params = s.params := rfl
@[simp] theorem resetState_env (s : State) : (resetState s).env = s.env := rfl
@[simp] theorem resetState_seq (s : State) : (resetState s).seq = State.reset.seq := rfl
@[simp] theorem resetState_tx (s : State) : (resetState s).tx = State.reset.tx := rfl
@[simp] theorem resetState_rx (s : State) : (resetState s).rx = State.reset.rx := rfl
@[simp] theorem resetState_acc (s : State) : (resetState s).acc = State.reset.acc := rfl
@[simp] theorem resetState_tab (s : State) : (resetState s).tab = State.reset.tab := rfl
@[simp] theorem resetState_resp (s : State) : (resetState s).resp = State.reset.resp := rfl
@[simp] theorem resetState_ctl (s : State) : (resetState s).ctl = State.reset.ctl := rfl
@[simp] theorem resetState_cnt (s : State) : (resetState s).cnt = State.reset.cnt := rfl

end Sys2Proof.Machine
end

