-- ==== Sys2Proof/Laws/Ops.lean ====
section
/-! SUPPORT. What each shared operation can do, said once: one lemma for each, which later proofs cite instead of
unfolding the operation, and the inversion of `step`. -/

namespace Sys2Proof.Machine

/-! ### Transmission -/

/-- The block's internal step (42_multiplexer R119): it waits, sends a byte with more to come, or sends the last byte and
ends ABORTED or enters `tx_next`. -/
theorem blockStep_cases (s : State) :
    (s.seq.muxState ≠ .tx ∧ blockStep s = s) ∨
    (s.seq.muxState = .tx ∧ s.tx.idx + 1 ≠ s.tx.len ∧ blockStep s = emitByte s) ∨
    (s.seq.muxState = .tx ∧ s.tx.idx + 1 = s.tx.len ∧ s.seq.abortPending = true ∧
      blockStep s = complete .aborted (emitByte s)) ∨
    (s.seq.muxState = .tx ∧ s.tx.idx + 1 = s.tx.len ∧ s.seq.abortPending = false ∧
      blockStep s = enterNext (emitByte s)) := by
  unfold blockStep
  split
  · rename_i hm
    refine Or.inr ?_
    by_cases hl : s.tx.idx + 1 = s.tx.len
    · refine Or.inr ?_
      rw [if_pos hl]
      cases ha : s.seq.abortPending
      · exact Or.inr ⟨hm, hl, rfl, rfl⟩
      · exact Or.inl ⟨hm, hl, rfl, rfl⟩
    · exact Or.inl ⟨hm, hl, if_neg hl⟩
  all_goals rename_i hm; simp [hm]

/-- Entering `tx_next` (R119). -/
theorem enterNext_cases (s : State) :
    (s.seq.txNext = .awaitUni ∧
      enterNext s = reasmClear { s with seq := { s.seq with muxState := .awaitUni } }) ∨
    (s.seq.txNext = .awaitGather ∧
      enterNext s = reasmClear { s with seq := { s.seq with muxState := .awaitGather } }) ∨
    (s.seq.txNext = .settle ∧ enterNext s = { s with seq := { s.seq with muxState := .settle } }) := by
  unfold enterNext
  split <;> rename_i h <;> simp [h]

/-! ### The reassembler -/

/-- The end of a reassembly step (41_reassembler R94). -/
theorem reasmFinish_cases (a : Accumulator) :
    (a.pkt = 0 ∧ reasmFinish a = ({ a with valid := false }, .complete (accResponse a))) ∨
    (a.pkt ≠ 0 ∧ reasmFinish a = (a, .pending)) := by
  by_cases h : a.pkt = 0
  · exact Or.inl ⟨h, if_pos h⟩
  · exact Or.inr ⟨h, if_neg h⟩

/-- One reassembly step (R94): a first fragment, a fragment of another response, too much, or one more fragment. -/
theorem reasmStep_cases (capacity : Nat) (f : Frame) (a : Accumulator) :
    (a.valid = false ∧ reasmStep capacity f a = reasmFinish (reasmFirst f a)) ∨
    (a.valid = true ∧ (f.src ≠ a.src ∨ f.dst ≠ a.dst ∨ f.ctl ≠ a.ctl ∨ f.cmd ≠ a.cmd) ∧
      reasmStep capacity f a = ({ a with valid := false }, .inconsistent)) ∨
    (a.valid = true ∧ f.src = a.src ∧ f.dst = a.dst ∧ f.ctl = a.ctl ∧ f.cmd = a.cmd ∧
      capacity < a.len.toNat + f.payload.length ∧ reasmStep capacity f a = ({ a with valid := false }, .overflow)) ∨
    (a.valid = true ∧ f.src = a.src ∧ f.dst = a.dst ∧ f.ctl = a.ctl ∧ f.cmd = a.cmd ∧
      a.len.toNat + f.payload.length ≤ capacity ∧ reasmStep capacity f a = reasmFinish (reasmAppend f a)) := by
  unfold reasmStep
  by_cases hv : a.valid = false
  · simp [hv]
  · have hv' : a.valid = true := by simpa using hv
    by_cases hd : f.src ≠ a.src ∨ f.dst ≠ a.dst ∨ f.ctl ≠ a.ctl ∨ f.cmd ≠ a.cmd
    · simp [hv', hd]
    · obtain ⟨h1, h2, h3, h4⟩ : f.src = a.src ∧ f.dst = a.dst ∧ f.ctl = a.ctl ∧ f.cmd = a.cmd := by
        simpa [not_or] using hd
      by_cases hc : capacity < a.len.toNat + f.payload.length
      · simp [hv', h1, h2, h3, h4, hc]
      · simp [hv', h1, h2, h3, h4, hc, Nat.le_of_not_lt hc]

/-- The packet counter is no part of the frame's checksum field: delivery reads neither. -/
theorem deliver_crc (f : Frame) (c : Half) (s : State) : deliver { f with crc := c } s = deliver f s := rfl

/-! ### Concluding and delivering -/

/-- The end of `conclude` (42_multiplexer R123). -/
theorem concludeOp_cases (code : Code) (s : State) :
    (s.seq.curOp = .enumerate ∧ concludeOp code s =
      complete code (reasmClear { s with resp := { s.resp with dev := s.seq.enumD, slot := 0 } })) ∨
    (s.seq.curOp ≠ .enumerate ∧ concludeOp code s = reasmClear { s with
      resp := { s.resp with dev := s.seq.pollD.setWidth 4, slot := s.seq.pollK }
      seq := { s.seq with muxState := .hold } }) := by
  unfold concludeOp
  split <;> rename_i h <;> simp [h]

/-- Delivery of a good frame (R120): a fragment of the awaited response, a fragment of a gathered one, or unsolicited. -/
theorem deliver_cases (f : Frame) (s : State) :
    (s.seq.muxState = .awaitUni ∧ deliver f s = uniResult (reasmAnswer f s) (reasmState f s)) ∨
    (s.seq.muxState = .awaitGather ∧ deliver f s = gatherResult (reasmAnswer f s) (reasmState f s)) ∨
    (s.seq.muxState ≠ .awaitUni ∧ s.seq.muxState ≠ .awaitGather ∧ deliver f s = countUnsolicited s) := by
  unfold deliver
  split <;> rename_i h <;> simp [h]

/-- A found device is below `dev_count` and has the address looked for (R126). -/
theorem findDevice_some {s : State} {a : Half} {i : Nat} (h : findDevice s a = some i) :
    i < s.tab.devCount.toNat ∧ deviceAddr s i = a := by
  have hp := List.find?_some h
  have hm := List.mem_of_find?_eq_some h
  exact ⟨List.mem_range.mp hm, by simpa using hp⟩

/-- No discovered device has the address looked for (R126). -/
theorem findDevice_none {s : State} {a : Half} (h : findDevice s a = none) :
    ∀ i, i < s.tab.devCount.toNat → deviceAddr s i ≠ a := by
  intro i hi hc
  have := List.find?_eq_none.mp h i (List.mem_range.mpr hi)
  simp [hc] at this

/-- `GatherInsert` (R126): updated in place, appended, or dropped. -/
theorem gatherInsert_cases (a : Half) (serial : Word) (tag : Vector Byte 8) (s : State) :
    (∃ i, findDevice s a = some i ∧ gatherInsert a serial tag s =
      setDevice i { deviceAt s i with serial := serial, tag := tag } s) ∨
    (findDevice s a = none ∧ s.tab.devCount.toNat < s.params.maxDevices ∧ gatherInsert a serial tag s =
      { s with tab := { s.tab with
          dev := s.tab.dev.setIfInBounds s.tab.devCount.toNat { addr := a, serial := serial, tag := tag }
          devCount := s.tab.devCount + 1 } }) ∨
    (findDevice s a = none ∧ s.params.maxDevices ≤ s.tab.devCount.toNat ∧ gatherInsert a serial tag s =
      { s with ctl := { s.ctl with devovf := true } }) := by
  unfold gatherInsert
  cases hf : findDevice s a with
  | some i => exact Or.inl ⟨i, rfl, rfl⟩
  | none =>
    by_cases hc : s.tab.devCount.toNat < s.params.maxDevices
    · exact Or.inr (Or.inl ⟨rfl, hc, by simp [hc, setDevice]⟩)
    · exact Or.inr (Or.inr ⟨rfl, Nat.le_of_not_lt hc, by simp [hc]⟩)

/-! ### Poll sequencing -/

/-- The loop of R128 answers a valid slot of a discovered device, from its starting point on. -/
theorem scanSlots_some {s : State} {fuel d k d' k' : Nat} (h : scanSlots s fuel d k = some (d', k')) :
    d' < s.tab.devCount.toNat ∧ k' < nSlots ∧ (slotAt s d' k').valid = true ∧ (d < d' ∨ (d = d' ∧ k ≤ k')) := by
  induction fuel generalizing d k with
  | zero => simp [scanSlots] at h
  | succ fuel ih =>
    unfold scanSlots at h
    split at h
    · rename_i hd
      split at h
      · rename_i hk
        split at h
        · rename_i hv
          obtain ⟨rfl, rfl⟩ : d = d' ∧ k = k' := by simpa using h
          exact ⟨hd, hk, hv, Or.inr ⟨rfl, le_refl k⟩⟩
        · obtain ⟨h1, h2, h3, h4⟩ := ih h
          exact ⟨h1, h2, h3, by omega⟩
      · obtain ⟨h1, h2, h3, h4⟩ := ih h
        exact ⟨h1, h2, h3, by omega⟩
    · simp at h

/-- The POLL's next move (R115, R129). -/
theorem pollSlot_cases (slot : Option (Nat × Nat)) (s : State) :
    (slot = none ∧ pollSlot slot s = complete .ok s) ∨
    (∃ d k, slot = some (d, k) ∧ pollSlot slot s = startTx (slotRequest s d k) .awaitUni (setCursor d k s)) := by
  rcases slot with _ | ⟨d, k⟩
  · exact Or.inl ⟨rfl, rfl⟩
  · exact Or.inr ⟨d, k, rfl, rfl⟩

/-! ### Link events -/

/-- `RxTimeout` (R122, R127, R133). -/
theorem doRxTimeout_cases (s : State) :
    (s.rx.state = .idle ∧ s.seq.muxState = .awaitUni ∧ doRxTimeout s = concludeFailure .noResponse s) ∨
    (s.rx.state = .idle ∧ s.seq.muxState = .awaitGather ∧ s.tab.devCount = 0 ∧
      doRxTimeout s = complete .discoveryEmpty s) ∨
    (s.rx.state = .idle ∧ s.seq.muxState = .awaitGather ∧ s.tab.devCount ≠ 0 ∧ doRxTimeout s = complete .ok s) ∨
    (¬(s.rx.state = .idle ∧ (s.seq.muxState = .awaitUni ∨ s.seq.muxState = .awaitGather)) ∧ doRxTimeout s = s) := by
  unfold doRxTimeout
  split
  · rename_i h1 h2; simp [h1, h2]
  · rename_i h1 h2
    by_cases h0 : s.tab.devCount = 0
    · exact Or.inr (Or.inl ⟨h1, h2, h0, if_pos h0⟩)
    · exact Or.inr (Or.inr (Or.inl ⟨h1, h2, h0, if_neg h0⟩))
  · rename_i h1 h2
    refine Or.inr (Or.inr (Or.inr ⟨?_, rfl⟩))
    rintro ⟨hr, hm | hm⟩
    · exact h1 hr hm
    · exact h2 hr hm

/-- `LinkError` (R89, R132). -/
theorem doLinkError_cases (s : State) :
    (busy s = true ∧ doLinkError s =
      complete .transportIo (closeBuffer { s with ctl := { s.ctl with linkerr := true } })) ∨
    (busy s = false ∧ doLinkError s = closeBuffer { s with ctl := { s.ctl with linkerr := true } }) := by
  by_cases h : busy s = true <;> simp [doLinkError, h]

/-! ### The meanings and the step -/

/-- A receive row run on a frame's own fields delivers the frame. -/
theorem receiveRow_fields {f : Frame} (h : f.payload.length ≤ 255) (s : State) :
    receiveRow f.cmd f.fields s = .next (deliver f s) := by
  have hl : f.fields.payload.length ≤ 255 := h
  simp only [receiveRow, hl, if_true]
  rfl

/-- The row of a good frame delivers it (42_multiplexer R120). -/
theorem exec_receivedRow {f : Frame} {i : Instr} (h : receivedRow f = some i) (hl : f.payload.length ≤ 255)
    (s : State) : exec i s = .next (deliver f s) := by
  have hr := receiveRow_fields hl s
  unfold receivedRow at h
  split at h
  · rename_i hc; obtain rfl := Option.some.inj h; rw [hc] at hr; exact hr
  · split at h
    · rename_i hc; obtain rfl := Option.some.inj h; rw [hc] at hr; exact hr
    · split at h
      · rename_i hc; obtain rfl := Option.some.inj h; rw [hc] at hr; exact hr
      · split at h
        · rename_i hc; obtain rfl := Option.some.inj h; rw [hc] at hr; exact hr
        · split at h
          · rename_i hc; obtain rfl := Option.some.inj h; rw [hc] at hr; exact hr
          · exact absurd h (by simp)

/-- A payload in the field registers is as long as the first length byte says (40_frame_codec R88). -/
theorem parserVerdict_payload {r : Receiver} {f : Frame} (h : parserVerdict r = .ok f) : f.payload.length ≤ 255 := by
  unfold parserVerdict at h
  split at h
  · exact absurd h (by simp)
  · split at h
    · exact absurd h (by simp)
    · split at h
      · exact absurd h (by simp)
      · obtain rfl := Verdict.ok.inj h
        have := r.l1.isLt
        simp only [receivedFrame, Memory.readBytes_length]
        omega

/-- What a host operation can do (42_multiplexer R109). -/
theorem command_cases (w : Word) (s : State) :
    (exec (decodeCommand w) s = .next s) ∨
    (exec (decodeCommand w) s = .next (whenIdle discoverIdle s)) ∨
    (exec (decodeCommand w) s = .next (whenIdle enumerateIdle s)) ∨
    (exec (decodeCommand w) s = .next (whenIdle pollIdle s)) ∨
    (exec (decodeCommand w) s = execContinuePoll s) ∨
    (exec (decodeCommand w) s = execAbort s) ∨
    (exec (decodeCommand w) s = .next (reservedOp s)) ∨
    (exec (decodeCommand w) s = .next (resetState s)) := by
  unfold decodeCommand
  split
  · exact Or.inl rfl
  · exact Or.inr (Or.inl rfl)
  · exact Or.inr (Or.inr (Or.inl rfl))
  · exact Or.inr (Or.inr (Or.inr (Or.inl rfl)))
  · exact Or.inr (Or.inr (Or.inr (Or.inr (Or.inl rfl))))
  · exact Or.inr (Or.inr (Or.inr (Or.inr (Or.inr (Or.inl rfl)))))
  all_goals first
    | exact Or.inr (Or.inr (Or.inr (Or.inr (Or.inr (Or.inr (Or.inl rfl))))))
    | exact Or.inr (Or.inr (Or.inr (Or.inr (Or.inr (Or.inr (Or.inr rfl))))))

/-- CONTINUE (R115, R109). -/
theorem execContinuePoll_cases (s : State) :
    (s.seq.muxState = .idle ∧ execContinuePoll s = .next (complete .badOp (accept .none s))) ∨
    (s.seq.muxState = .hold ∧ execContinuePoll s = .next (continueHeld s)) ∨
    (s.seq.muxState ≠ .idle ∧ s.seq.muxState ≠ .hold ∧ execContinuePoll s = .next (refuse s)) := by
  unfold execContinuePoll
  split <;> rename_i h <;> simp [h]

/-- ABORT (R116, R109). -/
theorem execAbort_cases (s : State) :
    (s.seq.muxState = .idle ∧ execAbort s = .next s) ∨
    (s.seq.muxState = .tx ∧ execAbort s = .next { s with seq := { s.seq with abortPending := true } }) ∨
    (s.seq.muxState ≠ .idle ∧ s.seq.muxState ≠ .tx ∧ execAbort s = .next (complete .aborted s)) := by
  unfold execAbort
  split <;> rename_i h <;> simp [h]

/-- An operation that only an idle block accepts (R109, R110). -/
theorem whenIdle_cases (act : State → State) (s : State) :
    (s.seq.muxState = .idle ∧ whenIdle act s = act s) ∨ (s.seq.muxState ≠ .idle ∧ whenIdle act s = refuse s) := by
  unfold whenIdle
  split <;> rename_i h <;> simp [h]

/-- A reserved operation (R118). -/
theorem reservedOp_cases (s : State) :
    (s.seq.muxState = .idle ∧ reservedOp s = complete .badOp (accept .none s)) ∨
    (s.seq.muxState ≠ .idle ∧ reservedOp s = refuse s) := by
  unfold reservedOp
  split <;> rename_i h <;> simp [h]

/-- What one event can do to a state it is taken in. -/
def EventCases (s t : State) : Event → Prop
  | .hostRead off => t = doHostRead off s
  | .hostWrite off w =>
    (regAt s.params off = .cmd ∧ exec (decodeCommand w) s = .next t) ∨
    (regAt s.params off ≠ .cmd ∧ t = writeReg w s (regAt s.params off))
  | .reset => t = resetState s
  | .blockStep => t = blockStep s
  | .rxByte b => t = doRxByte b s
  | .rxQuiet =>
    (s.rx.state = .idle ∧ t = s) ∨
    (∃ e, s.rx.state ≠ .idle ∧ parserVerdict s.rx = .bad e ∧ t = countFrameError e (closeBuffer s)) ∨
    (∃ f, s.rx.state ≠ .idle ∧ parserVerdict s.rx = .ok f ∧ t = deliver f (closeBuffer s))
  | .rxTimeout => t = doRxTimeout s
  | .settleElapsed =>
    (s.seq.muxState ≠ .settle ∧ t = s) ∨ (s.seq.muxState = .settle ∧ t = pollSlot (firstSlot s) s)
  | .linkError => t = doLinkError s

/-- A step that runs an instruction or settles, as one outcome. -/
def Fetched.outcome : Fetched → Host.Outcome State Fault Refusal
  | .run i s => exec i s
  | .settled s => .next s

theorem step_eq_outcome (s : State) : step s = (fetch s).outcome := by
  unfold step Fetched.outcome
  cases fetch s <;> rfl

theorem fetchRxQuiet_cases {s t : State} (h : (fetchRxQuiet s).outcome = .next t) : EventCases s t .rxQuiet := by
  unfold fetchRxQuiet at h
  split at h
  · rename_i hi
    exact Or.inl ⟨hi, (Host.Outcome.next.inj h).symm⟩
  · rename_i hi
    split at h
    · rename_i e hv
      exact Or.inr (Or.inl ⟨e, hi, hv, (Host.Outcome.next.inj h).symm⟩)
    · rename_i f hv
      refine Or.inr (Or.inr ⟨f, hi, hv, ?_⟩)
      unfold fetchFrame at h
      split at h
      · rename_i i hr
        simp only [Fetched.outcome, exec_receivedRow hr (parserVerdict_payload hv)] at h
        exact (Host.Outcome.next.inj h).symm
      · exact (Host.Outcome.next.inj h).symm

theorem fetchSettle_cases {s t : State} (h : (fetchSettle s).outcome = .next t) :
    EventCases s t .settleElapsed := by
  unfold fetchSettle at h
  split at h
  · rename_i hm
    refine Or.inr ⟨hm, ?_⟩
    split at h
    · rename_i hf
      rw [hf]
      exact (Host.Outcome.next.inj h).symm
    · rename_i d k hf
      rw [hf]
      exact (Host.Outcome.next.inj h).symm
  all_goals
    rename_i hm
    exact Or.inl ⟨by simp [hm], (Host.Outcome.next.inj h).symm⟩

theorem fetchHostWrite_cases {off : Offset} {w : Word} {s t : State}
    (h : (fetchHostWrite off w s).outcome = .next t) : EventCases s t (.hostWrite off w) := by
  unfold fetchHostWrite at h
  split at h
  · rename_i hr
    exact Or.inl ⟨hr, h⟩
  · rename_i hr
    exact Or.inr ⟨hr, (Host.Outcome.next.inj h).symm⟩

/-- The inversion of `step`: the block's own turn, or one scheduled event with what it can do. -/
theorem step_cases {s t : State} (h : step s = .next t) :
    (s.env.inputs = [] ∧ t = blockStep s) ∨
    (∃ e rest, s.env.inputs = e :: rest ∧ EventCases (setInputs rest s) t e) := by
  rw [step_eq_outcome] at h
  unfold fetch at h
  split at h
  · rename_i hi
    exact Or.inl ⟨hi, (Host.Outcome.next.inj h).symm⟩
  · rename_i e rest hi
    refine Or.inr ⟨e, rest, hi, ?_⟩
    cases e with
    | hostRead off => exact (Host.Outcome.next.inj h).symm
    | hostWrite off w => exact fetchHostWrite_cases h
    | reset => exact (Host.Outcome.next.inj h).symm
    | blockStep => exact (Host.Outcome.next.inj h).symm
    | rxByte b => exact (Host.Outcome.next.inj h).symm
    | rxQuiet => exact fetchRxQuiet_cases h
    | rxTimeout => exact (Host.Outcome.next.inj h).symm
    | settleElapsed => exact fetchSettle_cases h
    | linkError => exact (Host.Outcome.next.inj h).symm

end Sys2Proof.Machine
end

