-- ==== Sys2Proof/Laws/PerInstr.lean ====
section
/-! SUPPORT. The family of laws that holds of each instruction by itself: an encoding has the length its format gives
it, one 32-bit word at the CMD register (spec 20_memory R32) or `16 + L` bytes of a frame (30_encoding R54). -/

namespace Sys2Proof.Laws.EncodedLength

/-- The length of the encoding of a well-formed instruction. -/
def Statement (i : Instr) : Prop :=
  WellFormed i = true →
    ((encode i).1 = .hostCommand ∧ (encode i).2.length = 4) ∨
      ((encode i).1 ≠ .hostCommand ∧ 16 ≤ (encode i).2.length ∧ (encode i).2.length ≤ 271)

theorem word (op : Word) : (commandBytes op).1 = .hostCommand ∧ (commandBytes op).2.length = 4 := ⟨rfl, rfl⟩

theorem frame (cmd : Byte) (f : RxFields) (h : f.wellFormed = true) :
    16 ≤ (f.bytes cmd).length ∧ (f.bytes cmd).length ≤ 271 := by
  simp only [RxFields.wellFormed, decide_eq_true_eq] at h
  simp only [RxFields.bytes, frameBytes_length]
  omega

theorem nop : Statement .nop := fun _ => Or.inl (word _)
theorem discover : Statement .discover := fun _ => Or.inl (word _)
theorem enumerate : Statement .enumerate := fun _ => Or.inl (word _)
theorem poll : Statement .poll := fun _ => Or.inl (word _)
theorem continuePoll : Statement .continuePoll := fun _ => Or.inl (word _)
theorem abort : Statement .abort := fun _ => Or.inl (word _)
theorem reserved6 : Statement .reserved6 := fun _ => Or.inl (word _)
theorem reserved7 : Statement .reserved7 := fun _ => Or.inl (word _)
theorem reserved8 : Statement .reserved8 := fun _ => Or.inl (word _)
theorem reserved9 : Statement .reserved9 := fun _ => Or.inl (word _)
theorem reservedA : Statement .reservedA := fun _ => Or.inl (word _)
theorem reservedB : Statement .reservedB := fun _ => Or.inl (word _)
theorem reservedC : Statement .reservedC := fun _ => Or.inl (word _)
theorem reservedD : Statement .reservedD := fun _ => Or.inl (word _)
theorem reservedE : Statement .reservedE := fun _ => Or.inl (word _)
theorem reset : Statement .reset := fun _ => Or.inl (word _)

theorem txGetNetStart : Statement .txGetNetStart :=
  fun _ => Or.inr ⟨nofun, by simp [encode], by simp [encode]⟩

theorem txGetCinfo (dst : Half) : Statement (.txGetCinfo dst) :=
  fun _ => Or.inr ⟨nofun, by simp [encode], by simp [encode]⟩

theorem txSynOnline (t : Word) : Statement (.txSynOnline t) :=
  fun _ => Or.inr ⟨nofun, by simp [encode], by simp [encode]⟩

theorem txGetData (dst : Half) (type1 type2 index : Byte) : Statement (.txGetData dst type1 type2 index) :=
  fun _ => Or.inr ⟨nofun, by simp [encode], by simp [encode]⟩

theorem rxGetNetStart (f : RxFields) : Statement (.rxGetNetStart f) := fun h => Or.inr ⟨nofun, frame 6 f h⟩
theorem rxGetCinfo (f : RxFields) : Statement (.rxGetCinfo f) := fun h => Or.inr ⟨nofun, frame 9 f h⟩
theorem rxGetData (f : RxFields) : Statement (.rxGetData f) := fun h => Or.inr ⟨nofun, frame 11 f h⟩
theorem cmdSetData (f : RxFields) : Statement (.cmdSetData f) := fun h => Or.inr ⟨nofun, frame 12 f h⟩
theorem cmdPdelimit (f : RxFields) : Statement (.cmdPdelimit f) := fun h => Or.inr ⟨nofun, frame 40 f h⟩

end Sys2Proof.Laws.EncodedLength
end

