-- ==== Sys2Proof/Laws/Reassembly.lean ====
section
/-! SUPPORT. What the reassembler does with a fragment it takes, in terms of the payload gathered so far, and that every
receive row delivers its frame. -/

namespace Sys2Proof.Machine

/-- The limits of `P_REASM_MAX` (00_scope R7). -/
theorem reasmMax_bounds (p : Params) : 255 ≤ p.reasmMax ∧ p.reasmMax ≤ 4096 := by
  have := p.reasmExtra.isLt
  unfold Params.reasmMax
  omega

@[simp] theorem accPayload_of_empty {a : Accumulator} (h : a.valid = false) : accPayload a = [] := by
  simp [accPayload, h]

theorem accPayload_of_valid {a : Accumulator} (h : a.valid = true) :
    accPayload a = Memory.readBytes a.buf 0 a.len.toNat := by simp [accPayload, h]

/-- A fragment that is taken (41_reassembler R94): the accumulator before the final test on the packet counter holds the
fragment's header and the payload so far followed by its own, within the capacity; bytes past it stay. -/
theorem reasmStep_takes {capacity : Nat} {cmd : Byte} {f : RxFields} {a : Accumulator} (h255 : 255 ≤ capacity)
    (h4096 : capacity ≤ 4096) (hf : f.wellFormed = true) (ht : TakesFragment capacity cmd f a)
    (hw : Memory.wf a.buf = true) :
    ∃ b : Accumulator, reasmStep capacity (f.frame cmd) a = reasmFinish b ∧ b.valid = true ∧ b.src = f.src ∧
      b.dst = f.dst ∧ b.ctl = f.ctl ∧ b.cmd = cmd ∧ b.pkt = f.pkt ∧
      accPayload b = accPayload a ++ f.payload ∧ (accPayload b).length ≤ capacity ∧
      ∀ j, (accPayload b).length ≤ j → Memory.read b.buf j = Memory.read a.buf j := by
  have hl : f.payload.length ≤ 255 := by simpa [RxFields.wellFormed] using hf
  rcases reasmStep_cases capacity (f.frame cmd) a with ⟨hv, h⟩ | ⟨hv, hd, _⟩ | ⟨hv, _, _, _, _, hc, _⟩ |
    ⟨hv, h1, h2, h3, h4, hc, h⟩
  · have hn : (BitVec.ofNat 13 f.payload.length).toNat = f.payload.length := by
      rw [BitVec.toNat_ofNat]; omega
    have hp : accPayload (reasmFirst (f.frame cmd) a) = f.payload := by
      change Memory.readBytes (Memory.writeBytes a.buf 0 f.payload) 0 (BitVec.ofNat 13 f.payload.length).toNat = _
      rw [hn, Memory.readBytes_writeBytes hw]
    refine ⟨_, h, rfl, rfl, rfl, rfl, rfl, rfl, by rw [hp, accPayload_of_empty hv]; rfl, by rw [hp]; omega, ?_⟩
    intro j hj
    rw [hp] at hj
    exact Memory.read_writeBytes_outside _ _ _ (Or.inr (by rw [Nat.zero_add]; exact hj))
  · obtain ⟨h1, h2, h3, h4, _⟩ := ht hv
    rcases hd with hd | hd | hd | hd
    · exact absurd h1 hd
    · exact absurd h2 hd
    · exact absurd h3 hd
    · exact absurd h4 hd
  · exact absurd (ht hv).2.2.2.2 (Nat.not_le_of_lt hc)
  · have hc' : a.len.toNat + f.payload.length ≤ capacity := hc
    have hn : (BitVec.ofNat 13 (a.len.toNat + f.payload.length)).toNat = a.len.toNat + f.payload.length := by
      rw [BitVec.toNat_ofNat]; omega
    have hp : accPayload (reasmAppend (f.frame cmd) a) = accPayload a ++ f.payload := by
      rw [accPayload_of_valid hv, accPayload_of_valid (a := reasmAppend (f.frame cmd) a) hv]
      change Memory.readBytes (Memory.writeBytes a.buf a.len.toNat f.payload) 0
        (BitVec.ofNat 13 (a.len.toNat + f.payload.length)).toNat = _
      rw [hn, Memory.readBytes_append, Nat.zero_add, Memory.readBytes_writeBytes hw]
      congr 1
      exact Memory.readBytes_congr 0 _ fun j _ hj =>
        Memory.read_writeBytes_outside _ _ _ (Or.inl (by rw [Nat.zero_add] at hj; exact hj))
    have hlen : (accPayload (reasmAppend (f.frame cmd) a)).length = a.len.toNat + f.payload.length := by
      rw [hp, accPayload_of_valid hv, List.length_append, Memory.readBytes_length]
    refine ⟨_, h, hv, h1.symm, h2.symm, h3.symm, h4.symm, rfl, hp, by rw [hlen]; exact hc', ?_⟩
    intro j hj
    rw [hlen] at hj
    exact Memory.read_writeBytes_outside _ _ _ (Or.inr hj)

/-- A receive row delivers its frame (42_multiplexer R120). -/
theorem exec_receiveRow {row : (RxFields → Instr) × Byte} (h : row ∈ receiveRows) {f : RxFields}
    (hf : f.wellFormed = true) (s : State) : exec (row.1 f) s = .next (deliver (f.frame row.2) s) := by
  have hl : f.payload.length ≤ 255 := by simpa [RxFields.wellFormed] using hf
  have hr : receiveRow row.2 f s = .next (deliver (f.frame row.2) s) := if_pos hl
  simp only [receiveRows, List.mem_cons, List.not_mem_nil, or_false] at h
  rcases h with rfl | rfl | rfl | rfl | rfl <;> exact hr

end Sys2Proof.Machine
end

