-- ==== Sys2Proof/Tests/Slice0.lean ====
section
/-! SUPPORT. Tests: ill-formed instructions refused, encodings written out from the spec, one or two single steps of each
instruction (expected results from spec/95_test_vectors.md), and for each obligation with hypotheses a state and operands
that meet them. -/

namespace Sys2Proof.Tests

open Sys2Proof Sys2Proof.Machine

/-! ### Helpers -/

/-- A payload one byte longer than a frame can hold. -/
def longPayload : List Byte := List.replicate 256 0xFF

/-- Fields of a received frame. -/
def fieldsOf (src : Half) (pkt : Byte) (payload : List Byte) : RxFields :=
  { src := src, dst := 0, ctl := 0x40, pkt := pkt, payload := payload }

/-- The discovery answer of program P1's first device (95 section 7). -/
def answer : RxFields := fieldsOf 0x1234 0 [0x0D, 0x0C, 0x0B, 0x0A, 0x57, 0x52, 0x37, 0x30, 0x30, 0x2D, 0x30, 0x37]

/-- Idle with P1's first device found and slot (0,0) requested as in P3 (95 sections 6.1 and 7). -/
def oneDevice : State :=
  { State.reset with tab :=
    { devCount := 1
      dev := State.reset.tab.dev.set 0
        { addr := 0x1234, serial := 0x0A0B0C0D, tag := #v[0x57, 0x52, 0x37, 0x30, 0x30, 0x2D, 0x30, 0x37] }
      crt := State.reset.tab.crt.set 0
        ((Vector.replicate 8 Slot.zero).set 0 { valid := true, type1 := 0x01, type2 := 0x10, index := 0x03 }) } }

/-- A state of the sequencer over a state. -/
def within (m : MuxState) (op : CurOp) (s : State) : State :=
  { s with seq := { s.seq with muxState := m, curOp := op } }

/-- ENUMERATE 0 awaits its response. -/
def awaiting : State := within .awaitUni .enumerate oneDevice

/-- POLL awaits the response of slot (0,0). -/
def awaitingPoll : State := within .awaitUni .poll oneDevice

/-- The gather over an empty table. -/
def gathering : State := within .awaitGather .discover State.reset

/-- POLL has sent its broadcast. -/
def settling : State := within .settle .poll oneDevice

/-- POLL holds the result of slot (0,0). -/
def held : State := let s := within .hold .poll oneDevice; { s with resp := { s.resp with valid := true } }

/-- An accumulator with a first fragment of a response of device 0x1234. -/
def withFragmentOf (cmd : Byte) (payload : List Byte) (s : State) : State :=
  { s with acc := { valid := true, src := 0x1234, dst := 0, ctl := 0x40, cmd := cmd, pkt := 1,
                    len := BitVec.ofNat 13 payload.length, buf := Memory.writeBytes [] 0 payload } }

/-- The first fragment of two bytes, of command 9. -/
def withFragment (s : State) : State := withFragmentOf 9 [0xAA, 0xBB] s

/-- The smallest parameters: `P_REASM_MAX = 255`, `P_MAX_DEVICES = 1`. -/
def small (s : State) : State := { s with params := { reasmExtra := 0, deviceExtra := 0 } }

/-- POLL at time 5 has just been accepted: the first byte of its broadcast is still to be sent. -/
def transmitting : State := startTx (synRequest 5) .settle (within .tx .poll oneDevice)

/-- The events to come. -/
def given (es : List Event) (s : State) : State := setInputs es s

/-- The state after one instruction. -/
def runs (i : Instr) (s : State) : Option State :=
  match exec i s with
  | .next t => some t
  | .fault _ => none
  | .refused _ => none

/-- The state after one step with an event. -/
def takes (e : Event) (s : State) : Option State :=
  match step (given [e] s) with
  | .next t => some t
  | .fault _ => none
  | .refused _ => none

/-- The sequencer's state and the STATUS word. -/
def status (s : State) : MuxState × Word := (s.seq.muxState, statusWord s)

/-! ### Ill-formed instructions -/

/-- A frame that does not exist. -/
def tooLong : RxFields := fieldsOf 1 0 longPayload

theorem refused_tooLong : tooLong.wellFormed = false :=
  decide_eq_false (by change ¬(List.replicate 256 (0xFF : Byte)).length ≤ 255; rw [List.length_replicate]; decide)

theorem test_wellFormed_refuses_rxGetNetStart : WellFormed (.rxGetNetStart tooLong) = false := refused_tooLong
theorem test_wellFormed_refuses_rxGetCinfo : WellFormed (.rxGetCinfo tooLong) = false := refused_tooLong
theorem test_wellFormed_refuses_rxGetData : WellFormed (.rxGetData tooLong) = false := refused_tooLong
theorem test_wellFormed_refuses_cmdSetData : WellFormed (.cmdSetData tooLong) = false := refused_tooLong
theorem test_wellFormed_refuses_cmdPdelimit : WellFormed (.cmdPdelimit tooLong) = false := refused_tooLong

/-! ### Encodings written out (30 R52, R62; 95 E2 to E7, V1, V6, V7, P1 to P3) -/

theorem test_decode_nop : decode .hostCommand [0x00, 0x00, 0x00, 0x00] = .instr .nop := by decide
theorem test_decode_discover : decode .hostCommand [0x01, 0x00, 0x00, 0x00] = .instr .discover := by decide
theorem test_decode_enumerate : decode .hostCommand [0x02, 0x00, 0x00, 0x00] = .instr .enumerate := by decide
/-- 95 M7: the bits above the operation code are ignored. -/
theorem test_decode_poll : decode .hostCommand [0x13, 0x00, 0x00, 0x00] = .instr .poll := by decide
theorem test_decode_continue : decode .hostCommand [0xF4, 0xFF, 0xFF, 0xFF] = .instr .continuePoll := by decide
theorem test_decode_abort : decode .hostCommand [0x05, 0x00, 0x00, 0x00] = .instr .abort := by decide
theorem test_decode_reserved6 : decode .hostCommand [0x06, 0x00, 0x00, 0x00] = .instr .reserved6 := by decide
theorem test_decode_reserved7 : decode .hostCommand [0x07, 0x00, 0x00, 0x00] = .instr .reserved7 := by decide
theorem test_decode_reserved8 : decode .hostCommand [0x08, 0x00, 0x00, 0x00] = .instr .reserved8 := by decide
theorem test_decode_reserved9 : decode .hostCommand [0x09, 0x00, 0x00, 0x00] = .instr .reserved9 := by decide
theorem test_decode_reservedA : decode .hostCommand [0x0A, 0x00, 0x00, 0x00] = .instr .reservedA := by decide
theorem test_decode_reservedB : decode .hostCommand [0x0B, 0x00, 0x00, 0x00] = .instr .reservedB := by decide
theorem test_decode_reservedC : decode .hostCommand [0x0C, 0x00, 0x00, 0x00] = .instr .reservedC := by decide
theorem test_decode_reservedD : decode .hostCommand [0x0D, 0x00, 0x00, 0x00] = .instr .reservedD := by decide
theorem test_decode_reservedE : decode .hostCommand [0x0E, 0x00, 0x00, 0x00] = .instr .reservedE := by decide
theorem test_decode_reset : decode .hostCommand [0x0F, 0x00, 0x00, 0x00] = .instr .reset := by decide
theorem test_decode_txGetNetStart :
    decode .transmit [0xAA, 0xAA, 0x68, 0x00, 0x00, 0x68, 0x00, 0x00, 0x00, 0x00, 0x80, 0x00, 0x06, 0x86, 0x00, 0x16] =
      .instr .txGetNetStart := by decide
theorem test_decode_txGetCinfo :
    decode .transmit [0xAA, 0xAA, 0x68, 0x00, 0x00, 0x68, 0x00, 0x00, 0xCD, 0xAB, 0x00, 0x00, 0x09, 0x81, 0x01, 0x16] =
      .instr (.txGetCinfo 0xABCD) := by decide
theorem test_decode_txSynOnline :
    decode .transmit [0xAA, 0xAA, 0x68, 0x04, 0x04, 0x68, 0x00, 0x00, 0x00, 0x00, 0x80, 0x00, 0x0A, 0x28, 0xF1, 0x53,
      0x65, 0x5B, 0x02, 0x16] = .instr (.txSynOnline 0x6553F128) := by decide
theorem test_decode_txGetData :
    decode .transmit [0xAA, 0xAA, 0x68, 0x03, 0x03, 0x68, 0x00, 0x00, 0x34, 0x12, 0x00, 0x00, 0x0B, 0x01, 0x10, 0x03,
      0x65, 0x00, 0x16] = .instr (.txGetData 0x1234 0x01 0x10 0x03) := by decide
theorem test_decode_rxGetNetStart :
    decode .receive [0xAA, 0xAA, 0x68, 0x0C, 0x0C, 0x68, 0x34, 0x12, 0x00, 0x00, 0x40, 0x00, 0x06, 0x0D, 0x0C, 0x0B,
      0x0A, 0x57, 0x52, 0x37, 0x30, 0x30, 0x2D, 0x30, 0x37, 0x8E, 0x02, 0x16] = .instr (.rxGetNetStart answer) := by
  decide
theorem test_decode_rxGetCinfo :
    decode .receive [0x68, 0x02, 0x02, 0x68, 0x34, 0x12, 0x00, 0x00, 0x40, 0x00, 0x09, 0xAA, 0xBB, 0xF4, 0x01, 0x16] =
      .instr (.rxGetCinfo (fieldsOf 0x1234 0 [0xAA, 0xBB])) := by decide
theorem test_decode_rxGetData :
    decode .receive [0xAA, 0xAA, 0x68, 0x02, 0x02, 0x68, 0x02, 0x00, 0x00, 0x00, 0x40, 0x01, 0x0B, 0xAA, 0xBB, 0xB3,
      0x01, 0x16] = .instr (.rxGetData (fieldsOf 0x0002 1 [0xAA, 0xBB])) := by decide
theorem test_decode_cmdSetData :
    decode .receive [0x68, 0x00, 0x00, 0x68, 0x34, 0x12, 0x00, 0x00, 0x40, 0x00, 0x0C, 0x92, 0x00, 0x16] =
      .instr (.cmdSetData (fieldsOf 0x1234 0 [])) := by decide
theorem test_decode_cmdPdelimit :
    decode .receive [0x68, 0x01, 0x01, 0x68, 0x34, 0x12, 0x00, 0x00, 0x40, 0x00, 0x28, 0x02, 0xB0, 0x00, 0x16] =
      .instr (.cmdPdelimit (fieldsOf 0x1234 0 [0x02])) := by decide

/-- 95 V7: a wrong checksum byte is refused by name. -/
theorem test_decode_refuses_checksum :
    decode .receive [0x68, 0x02, 0x02, 0x68, 0x34, 0x12, 0x00, 0x00, 0x40, 0x00, 0x09, 0xAA, 0xBB, 0xF5, 0x01, 0x16] =
      .rejected (.badFrame .checksum) := by decide
/-- 95 S3: the length test comes before the checksum test. -/
theorem test_decode_refuses_lengths :
    decode .receive [0xAA, 0xAA, 0x68, 0x02, 0x03, 0x68, 0x00, 0x00, 0x02, 0x00, 0x80, 0x00, 0x06, 0xAA, 0xBB, 0x3D,
      0x01, 0x16] = .rejected (.badFrame .lengthMismatch) := by decide
/-- 95 V4: three wake bytes. -/
theorem test_decode_refuses_three_wake_bytes :
    decode .receive [0xAA, 0xAA, 0xAA, 0x68, 0x00, 0x00, 0x68, 0x42, 0x00, 0x00, 0x00, 0x40, 0x00, 0x06, 0x88, 0x00,
      0x16] = .rejected (.badFrame .malformed) := by decide
/-- 95 V23: a command byte the table does not list is no row. -/
theorem test_decode_refuses_unlisted_command :
    decode .receive [0xAA, 0xAA, 0x68, 0x01, 0x01, 0x68, 0xFF, 0xFF, 0xFF, 0xFF, 0x55, 0xFF, 0xEE, 0x00, 0x3E, 0x06,
      0x16] = .rejected (.unlistedCommand 0xEE) := by decide
/-- 95 S1 is no frame the block sends. -/
theorem test_decode_refuses_untransmitted :
    decode .transmit [0xAA, 0xAA, 0x68, 0x00, 0x00, 0x68, 0x00, 0x00, 0x02, 0x00, 0x80, 0x00, 0x06, 0x88, 0x00, 0x16] =
      .rejected (.neverTransmitted 6) := by decide

/-! ### Words of the opcode table -/

theorem test_table_word_command : decodeTableWord 8 0x04 = some .continuePoll := by decide
theorem test_table_word_frame : decodeTableWord 8 40 = some (.cmdPdelimit ⟨0, 0, 0, 0, []⟩) := by decide
theorem test_table_word_command_runs : step (State.reset.withFetchWord 8 0x01) = exec .discover State.reset := rfl
theorem test_table_word_frame_counts :
    (match step (State.reset.withFetchWord 8 40) with | .next t => some t.cnt.unsol | _ => none) = some 1 := by decide

/-! ### One step of each instruction (95 section 6) -/

/-- M1 -/
theorem test_nop : (runs .nop oneDevice).map status = some (.idle, 0x000) := by decide
/-- R112, R103 -/
theorem test_discover :
    (runs .discover oneDevice).map (fun t => (status t, txFrame t, t.tab.devCount, (slotAt t 0 0).valid, (slotAt t 0 0).type2)) =
      some ((.tx, 0x001),
        [0xAA, 0xAA, 0x68, 0x00, 0x00, 0x68, 0x00, 0x00, 0x00, 0x00, 0x80, 0x00, 0x06, 0x86, 0x00, 0x16], 0, false,
        0x10) := by decide +kernel
/-- M2, P2 -/
theorem test_enumerate :
    (runs .enumerate oneDevice).map (fun t => (status t, txFrame t)) =
      some ((.tx, 0x001),
        [0xAA, 0xAA, 0x68, 0x00, 0x00, 0x68, 0x00, 0x00, 0x34, 0x12, 0x00, 0x00, 0x09, 0x4F, 0x00, 0x16]) := by decide
/-- R113: BAD_DEVICE -/
theorem test_enumerate_bad_device : (runs .enumerate State.reset).map status = some (.idle, 0xA02) := by decide
/-- R114, E4 -/
theorem test_poll :
    (runs .poll { oneDevice with ctl := { oneDevice.ctl with arg := 0x6553F128 } }).map
        (fun t => (status t, txFrame t)) =
      some ((.tx, 0x001), [0xAA, 0xAA, 0x68, 0x04, 0x04, 0x68, 0x00, 0x00, 0x00, 0x00, 0x80, 0x00, 0x0A, 0x28, 0xF1, 0x53,
        0x65, 0x5B, 0x02, 0x16]) := by decide
/-- M14 -/
theorem test_poll_refused : (runs .poll awaiting).map status = some (.awaitUni, 0x021) := by decide
/-- M19 -/
theorem test_continue_last : (runs .continuePoll held).map status = some (.idle, 0x002) := by decide
/-- M3 -/
theorem test_continue_idle : (runs .continuePoll oneDevice).map status = some (.idle, 0x902) := by decide
/-- M12 -/
theorem test_abort_deferred :
    (runs .abort transmitting).map (fun t => (status t, t.seq.abortPending)) = some ((.tx, 0x001), true) := by decide
/-- M21: the held result keeps `resp_valid = 1` -/
theorem test_abort_hold :
    (runs .abort held).map (fun t => (status t, t.resp.valid)) = some ((.idle, 0xB02), true) := by decide
/-- M5, M6 and R118 -/
theorem test_reserved6 : (runs .reserved6 oneDevice).map status = some (.idle, 0x902) := by decide
theorem test_reserved7 : (runs .reserved7 oneDevice).map status = some (.idle, 0x902) := by decide
theorem test_reserved8 : (runs .reserved8 oneDevice).map status = some (.idle, 0x902) := by decide
theorem test_reserved9 : (runs .reserved9 transmitting).map status = some (.tx, 0x021) := by decide
theorem test_reservedA : (runs .reservedA oneDevice).map status = some (.idle, 0x902) := by decide
theorem test_reservedB : (runs .reservedB oneDevice).map status = some (.idle, 0x902) := by decide
theorem test_reservedC : (runs .reservedC held).map status = some (.hold, 0x025) := by decide
theorem test_reservedD : (runs .reservedD oneDevice).map status = some (.idle, 0x902) := by decide
theorem test_reservedE : (runs .reservedE oneDevice).map status = some (.idle, 0x902) := by decide
/-- M22 -/
theorem test_reset :
    (runs .reset held).map (fun t => (status t, t.tab.devCount, t.resp.valid)) = some ((.idle, 0x000), 0, false) := by
  decide
/-- R101, R103 -/
theorem test_txGetNetStart :
    (runs .txGetNetStart State.reset).map (fun t => (t.seq.txNext, t.tx.len, t.tx.idx)) =
      some (.awaitGather, 16, 0) := by decide
/-- E8 -/
theorem test_txGetCinfo :
    (runs (.txGetCinfo 0xABCD) State.reset).map (fun t => (t.seq.txNext, txFrame t)) =
      some (.awaitUni,
        [0xAA, 0xAA, 0x68, 0x00, 0x00, 0x68, 0x00, 0x00, 0xCD, 0xAB, 0x00, 0x00, 0x09, 0x81, 0x01, 0x16]) := by decide
/-- E6 -/
theorem test_txSynOnline :
    (runs (.txSynOnline 0xFFFFFFFF) State.reset).map (fun t => (t.seq.txNext, txFrame t)) =
      some (.settle, [0xAA, 0xAA, 0x68, 0x04, 0x04, 0x68, 0x00, 0x00, 0x00, 0x00, 0x80, 0x00, 0x0A, 0xFF, 0xFF, 0xFF, 0xFF,
        0x86, 0x04, 0x16]) := by decide
/-- E9 -/
theorem test_txGetData :
    (runs (.txGetData 0xFFFF 0xFF 0xFF 0xFF) State.reset).map (fun t => (t.seq.txNext, txFrame t)) =
      some (.awaitUni, [0xAA, 0xAA, 0x68, 0x03, 0x03, 0x68, 0x00, 0x00, 0xFF, 0xFF, 0x00, 0x00, 0x0B, 0xFF, 0xFF, 0xFF,
        0x06, 0x05, 0x16]) := by decide
/-- DG1 -/
theorem test_rxGetNetStart :
    (runs (.rxGetNetStart answer) gathering).map
        (fun t => (t.tab.devCount, (deviceAt t 0).serial, tagWord (deviceAt t 0).tag 0, tagWord (deviceAt t 0).tag 4)) =
      some (1, 0x0A0B0C0D, 0x30375257, 0x37302D30) := by decide
/-- DG2 -/
theorem test_rxGetNetStart_controller :
    (runs (.rxGetNetStart { answer with src := 0 }) gathering).map (fun t => (t.tab.devCount, t.cnt.unsol)) =
      some (0, 1) := by decide
/-- R121, R123: the second fragment completes the response -/
theorem test_rxGetCinfo :
    (runs (.rxGetCinfo (fieldsOf 0x1234 0 [0xCC])) (withFragment awaiting)).map
        (fun t => (status t, readReg t .respStatus, readReg t .respLen, readReg t (.respBuf 0))) =
      some ((.idle, 0x002), 0x80000000, 3, 0x00CCBBAA) := by decide
/-- R121, R123: a result of POLL is held -/
theorem test_rxGetData :
    (runs (.rxGetData (fieldsOf 0x1234 0 [0xEB, 0x00])) awaitingPoll).map
        (fun t => (status t, readReg t .respCtlCmd, readReg t (.respBuf 0))) =
      some ((.hold, 0x005), 0x0B40, 0x000000EB) := by decide
/-- A11: another command than the accumulator's -/
theorem test_cmdSetData :
    (runs (.cmdSetData (fieldsOf 0x1234 0 [])) (withFragment awaiting)).map status = some (.idle, 0x402) := by decide
/-- L9 -/
theorem test_cmdPdelimit :
    (runs (.cmdPdelimit (fieldsOf 0x1234 0 [])) settling).map (fun t => (status t, t.cnt.unsol)) =
      some ((.settle, 0x001), 1) := by decide

/-! ### Steps that run no instruction -/

/-- 95 section 6.4 -/
theorem test_status_clears :
    (takes (.hostWrite 0x008 0x10) { State.reset with
      ctl := { State.reset.ctl with done := true, err := 11, devovf := true, linkerr := true, cmderr := true } }).map
        statusWord = some 0xB2A := by decide
/-- L7 -/
theorem test_link_error : (takes .linkError transmitting).map status = some (.idle, 0x712) := by decide
/-- P2: no answer -/
theorem test_timeout :
    (takes .rxTimeout awaiting).map (fun t => (status t, readReg t .respStatus)) =
      some ((.idle, 0x502), 0x80000005) := by decide
/-- R129, E7 -/
theorem test_settle :
    (takes .settleElapsed settling).map (fun t => (status t, txFrame t)) =
      some ((.tx, 0x001), [0xAA, 0xAA, 0x68, 0x03, 0x03, 0x68, 0x00, 0x00, 0x34, 0x12, 0x00, 0x00, 0x0B, 0x01, 0x10, 0x03,
        0x65, 0x00, 0x16]) := by decide
/-- R119 -/
theorem test_transmit_byte : (takes .blockStep transmitting).map (fun t => (t.env.txStream, t.tx.idx)) =
    some ([0xAA], 1) := by decide

/-! ### States and operands that meet the hypotheses of the obligations -/

/-- The bytes of 95 V1, a good frame. -/
def goodBuffer : List Byte :=
  [0xAA, 0xAA, 0x68, 0x02, 0x02, 0x68, 0x34, 0x12, 0x00, 0x00, 0x40, 0x00, 0x09, 0xAA, 0xBB, 0xF4, 0x01, 0x16]

/-- The bytes of 95 V23, a good frame with an unlisted command byte. -/
def unlistedBuffer : List Byte :=
  [0xAA, 0xAA, 0x68, 0x01, 0x01, 0x68, 0xFF, 0xFF, 0xFF, 0xFF, 0x55, 0xFF, 0xEE, 0x00, 0x3E, 0x06, 0x16]

/-- A buffer has been received and its end is the next event. -/
def received (bytes : List Byte) (s : State) : State := given [.rxQuiet] { s with rx := parseBytes s.rx bytes }

/-- A payload of the largest size. -/
def fullPayload : List Byte := List.replicate 255 0xFF

/-- Slot (0,7) of the device is requested too. -/
def twoSlots (s : State) : State := setSlot 0 7 { valid := true, type1 := 0x01, type2 := 0x10, index := 0x0A } s

/-- The last byte of the frame is the next to be sent. -/
def lastByte (next : TxNext) (abort : Bool) : State :=
  { transmitting with
    seq := { transmitting.seq with txNext := next, abortPending := abort }
    tx := { transmitting.tx with idx := 19 } }

/-- A payload is being received while a frame is sent. -/
def parsing : State := { transmitting with rx := { transmitting.rx with state := .pay, l1 := 2, cnt := 1 } }

/-- The accumulator is one byte short of the smallest capacity. -/
def nearlyFull (s : State) : State :=
  let t := withFragment (small s)
  { t with acc := { t.acc with len := 254 } }

/-- Frames of 95 S5, scenario fragment reassembly. -/
def fragmentA : Frame :=
  { src := 0x0002, dst := 0, ctl := 0x40, pkt := 1, cmd := 11, payload := [0xAA, 0xBB], crc := 0x01B3 }
def fragmentB : Frame :=
  { src := 0x0002, dst := 0, ctl := 0x40, pkt := 0, cmd := 11, payload := [0xCC, 0xDD, 0xEE], crc := 0x02E4 }

theorem row_rxGetNetStart : (Instr.rxGetNetStart, 6) ∈ receiveRows := .head _
theorem row_rxGetCinfo : (Instr.rxGetCinfo, 9) ∈ receiveRows := .tail _ (.head _)
theorem row_rxGetData : (Instr.rxGetData, 11) ∈ receiveRows := .tail _ (.tail _ (.head _))
theorem row_cmdSetData : (Instr.cmdSetData, 12) ∈ receiveRows := .tail _ (.tail _ (.tail _ (.head _)))
theorem row_cmdPdelimit : (Instr.cmdPdelimit, 40) ∈ receiveRows := .tail _ (.tail _ (.tail _ (.tail _ (.head _))))

theorem fullPayload_length : fullPayload.length = 255 := List.length_replicate

theorem wellFormed_of_length {f : RxFields} (h : f.payload.length ≤ 255) : f.wellFormed = true := decide_eq_true h

theorem test_witness_DecodeInvertsEncode :
    WellFormed (.rxGetData (fieldsOf 0xFFFF 0xFF fullPayload)) = true ∧ WellFormed (.txSynOnline 0xFFFFFFFF) = true :=
  ⟨wellFormed_of_length (f := fieldsOf 0xFFFF 0xFF fullPayload) (Nat.le_of_eq fullPayload_length), rfl⟩
theorem test_witness_EncodeInvertsTransmitDecode :
    decode .transmit [0xAA, 0xAA, 0x68, 0x00, 0x00, 0x68, 0x00, 0x00, 0x34, 0x12, 0x00, 0x00, 0x09, 0x4F, 0x00, 0x16] =
      .instr (.txGetCinfo 0x1234) := by decide
theorem test_witness_EncodedFrameDecodesToItsOperands : fullPayload.length ≤ 255 ∧ ([] : List Byte).length ≤ 255 := by
  rw [fullPayload_length]; decide
theorem test_witness_GoodBuffersAreTheFrameLayout :
    decodeFrame goodBuffer = .ok
      { src := 0x1234, dst := 0, ctl := 0x40, pkt := 0, cmd := 9, payload := [0xAA, 0xBB], crc := 0x01F4 } := by
  decide
theorem test_witness_ParserGivesTheDecodersVerdict :
    let r := { parseBytes State.reset.rx goodBuffer with state := .idle }
    r.state = .idle ∧ Memory.wf r.pay = true ∧ r.pay ≠ [] ∧ goodBuffer ≠ [] := by decide
theorem test_witness_ReceivedByte :
    (given [.rxByte 0xFF] parsing).env.inputs = [.rxByte 0xFF] ∧
      (given [.rxByte 0x00] oneDevice).env.inputs = [.rxByte 0x00] := by decide
theorem test_witness_ReceivedBufferRunsItsRow :
    let s := given (goodBuffer.map .rxByte ++ .rxQuiet :: []) awaiting
    s.env.inputs = goodBuffer.map .rxByte ++ .rxQuiet :: [] ∧ s.rx.state = .idle ∧ Memory.wf s.rx.pay = true ∧
      goodBuffer ≠ [] ∧ decode .receive goodBuffer = .instr (.rxGetCinfo (fieldsOf 0x1234 0 [0xAA, 0xBB])) := by decide
theorem test_witness_BadBufferIsCountedAndDropped :
    let malformed := received [0x68] awaiting
    let lengths := received [0x68, 0x03, 0x02, 0x68, 0x34, 0x12, 0x00, 0x00, 0x40, 0x00, 0x09, 0x01, 0x02, 0x03, 0x95,
      0x00, 0x16] gathering
    let sum := received [0x68, 0x00, 0x00, 0x68, 0x34, 0x12, 0x00, 0x00, 0x40, 0x00, 0x0C, 0x93, 0x00, 0x16] held
    (malformed.env.inputs = [.rxQuiet] ∧ malformed.rx.state ≠ .idle ∧ parserVerdict malformed.rx = .bad .malformed) ∧
    (lengths.env.inputs = [.rxQuiet] ∧ lengths.rx.state ≠ .idle ∧
      parserVerdict lengths.rx = .bad .lengthMismatch) ∧
    (sum.env.inputs = [.rxQuiet] ∧ sum.rx.state ≠ .idle ∧ parserVerdict sum.rx = .bad .checksum) := by decide
theorem test_witness_StepRunsTheDecodedInstruction :
    let command := given [.hostWrite 0x004 0x13] oneDevice
    let listed := received goodBuffer awaiting
    let unlisted := received unlistedBuffer awaiting
    (command.env.inputs = [.hostWrite 0x004 0x13] ∧ regAt command.params 0x004 = .cmd ∧
      decode .hostCommand (le32Bytes 0x13) = .instr .poll) ∧
    (listed.env.inputs = [.rxQuiet] ∧ listed.rx.state ≠ .idle ∧ ∃ f, parserVerdict listed.rx = .ok f ∧
      receivedRow f = some (.rxGetCinfo (fieldsOf 0x1234 0 [0xAA, 0xBB]))) ∧
    (unlisted.env.inputs = [.rxQuiet] ∧ unlisted.rx.state ≠ .idle ∧ ∃ f, parserVerdict unlisted.rx = .ok f ∧
      receivedRow f = none) :=
  ⟨by decide, ⟨by decide, by decide, _, rfl, by decide⟩, ⟨by decide, by decide, _, rfl, by decide⟩⟩
theorem test_witness_SettleElapsedStartsTheFirstSlot :
    let some1 := given [.settleElapsed] settling
    let none1 := given [.settleElapsed] (within .settle .poll State.reset)
    (some1.env.inputs = [.settleElapsed] ∧ some1.seq.muxState = .settle ∧ firstSlot some1 = some (0, 0)) ∧
    (none1.env.inputs = [.settleElapsed] ∧ none1.seq.muxState = .settle ∧ firstSlot none1 = none) := by decide
theorem test_witness_OffsetsSelectTheRegisters :
    let p := (small State.reset).params
    ((0x044 ≤ 0x044 ∧ 0x044 < 0x100) ∧ (0x400 ≤ 0xFFF ∧ 0xFFF < 0x1000)) ∧ 15 < Params.default.maxDevices ∧
      0 < p.maxDevices ∧ p.maxDevices ≤ 1 ∧ 4 * 63 < p.reasmMax ∧ ¬4 * 64 < p.reasmMax ∧
      4 * 1023 < Params.default.reasmMax := by decide
theorem test_witness_HostReadChangesNoState :
    (given [.hostRead 0x1FFF] oneDevice).env.inputs = [.hostRead 0x1FFF] := by decide
theorem test_witness_UnmappedAndReadOnlyAreInert :
    let s := small oneDevice
    (regAt s.params 0x02C = .unmapped ∧ regAt s.params 0x110 = .unmapped ∧ regAt s.params 0x007 = .cmd) ∧ regAt s.params 0x10C = .devTypeHi 0 ∧
      (given [.hostWrite 0x10C 1] s).env.inputs = [.hostWrite 0x10C 1] ∧ regAt s.params 0x10C ≠ .ctrl ∧
      regAt s.params 0x10C ≠ .cmd ∧ regAt s.params 0x10C ≠ .status ∧ regAt s.params 0x10C ≠ .arg ∧
      ∀ i k, regAt s.params 0x10C ≠ .crt i k := by
  refine ⟨by decide, by decide, by decide, by decide, by decide, by decide, by decide, fun i k h => ?_⟩
  exact HostReg.noConfusion (h.symm.trans (show _ = HostReg.devTypeHi 0 by decide))
theorem test_witness_StatusFieldsAndClears :
    let s := given [.hostWrite 0x008 0x3A] held
    s.env.inputs = [.hostWrite 0x008 0x3A] ∧ regAt s.params 0x008 = .status := by decide
theorem test_witness_CtrlHoldsTheInterruptEnable :
    let s := given [.hostWrite 0x003 0x1] held
    s.env.inputs = [.hostWrite 0x003 0x1] ∧ regAt s.params 0x003 = .ctrl := by decide
theorem test_witness_ArgIsWrittenWhenIdle :
    let idle := given [.hostWrite 0x00C 0x5] oneDevice
    let busy := given [.hostWrite 0x00C 0x5] held
    (regAt idle.params 0x00C = .arg ∧ idle.env.inputs = [.hostWrite 0x00C 0x5] ∧ idle.seq.muxState = .idle) ∧
    (regAt busy.params 0x00C = .arg ∧ busy.env.inputs = [.hostWrite 0x00C 0x5] ∧ busy.seq.muxState ≠ .idle) := by
  decide
theorem test_witness_ChannelRequestRegisters :
    let idle := given [.hostWrite 0x3FC 0x80000000] oneDevice
    let busy := given [.hostWrite 0x200 0] held
    (regAt idle.params 0x3FC = .crt 15 7 ∧ idle.env.inputs = [.hostWrite 0x3FC 0x80000000] ∧
      idle.seq.muxState = .idle) ∧
    (regAt busy.params 0x200 = .crt 0 0 ∧ busy.env.inputs = [.hostWrite 0x200 0] ∧ busy.seq.muxState ≠ .idle) := by
  decide
theorem test_witness_ResponseWindowPacksTheResponse :
    4 * (255 / 4) < (small held).params.reasmMax ∧ 4 * (4095 / 4) < held.params.reasmMax ∧
      4 * (0 / 4) < held.params.reasmMax := by decide
theorem test_witness_ResponseRegistersReadTheirFields :
    [0x030, 0x034, 0x038, 0x03C, 0x040].map (regAt held.params) =
      [.respStatus, .respSrc, .respDst, .respCtlCmd, .respLen] := by decide
theorem test_witness_TableAndCounterRegistersRead :
    [0x010, 0x014, 0x018, 0x01C, 0x020, 0x024, 0x028, 0x100, 0x104, 0x108, 0x1FC].map (regAt held.params) =
      [.devCount, .cntMal, .cntLen, .cntCsum, .cntUnsol, .cntFrag, .lastFrameErr, .devAddr 0, .devSerial 0,
       .devTypeLo 0, .devTypeHi 15] := by decide
theorem test_witness_DiscoverStartsTheGather :
    oneDevice.seq.muxState = .idle ∧ Memory.wf oneDevice.tx.buf = true := by decide
theorem test_witness_EnumerateRequestsOrRejects :
    (oneDevice.seq.muxState = .idle ∧ Memory.wf oneDevice.tx.buf = true ∧
      oneDevice.ctl.arg.toNat % 256 < oneDevice.tab.devCount.toNat) ∧
    (State.reset.seq.muxState = .idle ∧ Memory.wf State.reset.tx.buf = true ∧
      State.reset.tab.devCount.toNat ≤ State.reset.ctl.arg.toNat % 256) := by decide
theorem test_witness_PollBroadcastsItsTime :
    oneDevice.seq.muxState = .idle ∧ Memory.wf oneDevice.tx.buf = true := by decide
theorem test_witness_ContinueReleasesTheHeldResult :
    (held.seq.muxState = .hold ∧ nextSlot held held.seq.pollD.toNat held.seq.pollK.toNat = none) ∧
    ((twoSlots held).seq.muxState = .hold ∧
      nextSlot (twoSlots held) held.seq.pollD.toNat held.seq.pollK.toNat = some (0, 7) ∧
      Memory.wf (twoSlots held).tx.buf = true) ∧
    oneDevice.seq.muxState = .idle ∧ (settling.seq.muxState ≠ .hold ∧ settling.seq.muxState ≠ .idle) := by decide
theorem test_witness_AbortEndsOrIsDeferred :
    transmitting.seq.muxState = .tx ∧ awaiting.seq.muxState = .awaitUni ∧ gathering.seq.muxState = .awaitGather ∧
      settling.seq.muxState = .settle ∧ held.seq.muxState = .hold ∧ oneDevice.seq.muxState = .idle := by decide
theorem test_witness_ResetRestoresEveryElement :
    (given [.reset] transmitting).env.inputs = [.reset] := by decide
theorem test_witness_ReservedOperationIsBadOp :
    Instr.reserved6 ∈ reservedRows ∧ Instr.reservedE ∈ reservedRows ∧ oneDevice.seq.muxState = .idle := by decide
theorem test_witness_BusyBlockRefusesCommands :
    Instr.poll ∈ [Instr.discover, Instr.enumerate, Instr.poll] ++ reservedRows ∧ held.seq.muxState ≠ .idle := by decide
theorem test_witness_RequestRowsStartTheirFrames : Memory.wf transmitting.tx.buf = true := by decide
theorem test_witness_BlockStepSendsOneByte :
    (held.env.inputs = [] ∧ held.seq.muxState ≠ .tx) ∧
    ((given [.blockStep, .linkError] held).env.inputs = [.blockStep, .linkError] ∧ held.seq.muxState ≠ .tx) ∧
    (transmitting.env.inputs = [] ∧ transmitting.seq.muxState = .tx ∧ transmitting.tx.idx + 1 ≠ transmitting.tx.len) ∧
    (∀ n ∈ [TxNext.awaitUni, .awaitGather, .settle], ∀ a : Bool,
      (given [.blockStep, .linkError] (lastByte n a)).env.inputs = [.blockStep, .linkError] ∧
      (lastByte n a).seq.muxState = .tx ∧ (lastByte n a).tx.idx + 1 = (lastByte n a).tx.len ∧
      (lastByte n a).seq.abortPending = a ∧ (lastByte n a).seq.txNext = n) := by decide
theorem test_witness_PendingFrameIsSentWhole :
    (transmitting.env.inputs = [] ∧ transmitting.seq.muxState = .tx ∧
      transmitting.tx.idx.toNat < transmitting.tx.len.toNat ∧ transmitting.seq.abortPending = false ∧
      transmitting.seq.txNext = .settle) ∧
    (∀ n ∈ [TxNext.awaitUni, .awaitGather, .settle], ∀ a : Bool,
      (lastByte n a).env.inputs = [] ∧ (lastByte n a).seq.muxState = .tx ∧
      (lastByte n a).tx.idx.toNat < (lastByte n a).tx.len.toNat ∧ (lastByte n a).seq.abortPending = a ∧
      (lastByte n a).seq.txNext = n) := by decide
theorem test_witness_CompleteResponseIsItsFragments :
    State.reset.acc.valid = false ∧ Memory.wf State.reset.acc.buf = true ∧
      (∀ g ∈ [fragmentA] ++ [fragmentB], g.payload.length ≤ 255) ∧
      (reasmAll 255 State.reset.acc ([fragmentA] ++ [fragmentB])).2 = List.replicate [fragmentA].length .pending ++
        [.complete { src := 0x0002, dst := 0, ctl := 0x40, cmd := 11,
                     payload := [0xAA, 0xBB, 0xCC, 0xDD, 0xEE] }] := by decide
theorem test_witness_FragmentsReassemble :
    State.reset.acc.valid = false ∧ Memory.wf State.reset.acc.buf = true ∧
      (∀ g ∈ [fragmentA] ++ [fragmentB], g.payload.length ≤ 255) ∧
      (∀ g ∈ [fragmentA], g.src = fragmentB.src ∧ g.dst = fragmentB.dst ∧ g.ctl = fragmentB.ctl ∧
        g.cmd = fragmentB.cmd ∧ g.pkt ≠ 0) ∧ fragmentB.pkt = 0 ∧
      (([fragmentA] ++ [fragmentB]).flatMap Frame.payload).length ≤ 255 ∧ 255 ≤ 255 ∧ 255 ≤ 4096 := by decide

/-- An empty accumulator takes any fragment. -/
theorem takes_first (capacity : Nat) (cmd : Byte) (f : RxFields) : TakesFragment capacity cmd f State.reset.acc :=
  fun h => absurd h (by decide)

/-- A full accumulator of the smallest capacity takes the byte that fills it. -/
theorem takes_filling (s : State) : TakesFragment 255 9 (fieldsOf 0x1234 0 [0x01]) (nearlyFull s).acc :=
  fun _ => ⟨rfl, rfl, rfl, rfl, show 254 + 1 ≤ 255 by decide⟩

theorem test_witness_PendingFragmentIsKept :
    ((Instr.rxGetCinfo, 9) ∈ receiveRows ∧ (fieldsOf 0x1234 0xFF [0x01]).wellFormed = true ∧
      awaiting.seq.muxState = .awaitUni ∧
      TakesFragment awaiting.params.reasmMax 9 (fieldsOf 0x1234 0xFF [0x01]) awaiting.acc ∧
      (fieldsOf 0x1234 0xFF [0x01]).pkt ≠ 0 ∧ Memory.wf awaiting.acc.buf = true) ∧
    ((withFragment gathering).seq.muxState = .awaitGather ∧ (withFragment gathering).acc.valid = true ∧
      TakesFragment (withFragment gathering).params.reasmMax 9 (fieldsOf 0x1234 0xFF [0x01])
        (withFragment gathering).acc ∧ Memory.wf (withFragment gathering).acc.buf = true) :=
  ⟨⟨row_rxGetCinfo, by decide, by decide, takes_first _ _ _, by decide, by decide⟩, by decide, by decide,
    fun _ => by decide, by decide⟩
theorem test_witness_LastFragmentCompletesEnumerate :
    ((Instr.cmdSetData, 12) ∈ receiveRows ∧ (fieldsOf 0x1234 0 [0x01]).wellFormed = true ∧
      awaiting.seq.muxState = .awaitUni ∧ awaiting.seq.curOp = .enumerate ∧
      TakesFragment awaiting.params.reasmMax 12 (fieldsOf 0x1234 0 [0x01]) awaiting.acc ∧
      (fieldsOf 0x1234 0 [0x01]).pkt = 0 ∧ Memory.wf awaiting.acc.buf = true ∧ Memory.wf awaiting.resp.buf = true) ∧
    ((Instr.rxGetCinfo, 9) ∈ receiveRows ∧ (nearlyFull awaiting).seq.muxState = .awaitUni ∧
      (nearlyFull awaiting).seq.curOp = .enumerate ∧ (nearlyFull awaiting).acc.valid = true ∧
      TakesFragment (nearlyFull awaiting).params.reasmMax 9 (fieldsOf 0x1234 0 [0x01]) (nearlyFull awaiting).acc ∧
      Memory.wf (nearlyFull awaiting).acc.buf = true ∧ Memory.wf (nearlyFull awaiting).resp.buf = true) :=
  ⟨⟨row_cmdSetData, by decide, by decide, by decide, takes_first _ _ _, by decide, by decide, by decide⟩,
    row_rxGetCinfo, by decide, by decide, by decide, takes_filling _, by decide, by decide⟩
theorem test_witness_LastFragmentIsHeldForPoll :
    let s := withFragmentOf 11 [0x01, 0x10] awaitingPoll
    ((Instr.rxGetData, 11) ∈ receiveRows ∧ (fieldsOf 0x1234 0 []).wellFormed = true ∧
      awaitingPoll.seq.muxState = .awaitUni ∧ awaitingPoll.seq.curOp = .poll ∧
      TakesFragment awaitingPoll.params.reasmMax 11 (fieldsOf 0x1234 0 []) awaitingPoll.acc ∧
      (fieldsOf 0x1234 0 []).pkt = 0 ∧ Memory.wf awaitingPoll.acc.buf = true ∧
      Memory.wf awaitingPoll.resp.buf = true) ∧
    (s.seq.muxState = .awaitUni ∧ s.seq.curOp = .poll ∧ s.acc.valid = true ∧
      TakesFragment s.params.reasmMax 11 (fieldsOf 0x1234 0 []) s.acc ∧ Memory.wf s.acc.buf = true ∧
      Memory.wf s.resp.buf = true) :=
  ⟨⟨row_rxGetData, by decide, by decide, by decide, takes_first _ _ _, by decide, by decide, by decide⟩,
    by decide, by decide, by decide, fun _ => by decide, by decide, by decide⟩
theorem test_witness_FragmentErrorConcludesTheTransaction :
    ((Instr.cmdPdelimit, 40) ∈ receiveRows ∧ (fieldsOf 0x1234 0 []).wellFormed = true ∧
      (withFragment awaiting).seq.muxState = .awaitUni ∧ (withFragment awaiting).acc.valid = true ∧
      ¬((fieldsOf 0x1234 0 []).src = (withFragment awaiting).acc.src ∧
        (fieldsOf 0x1234 0 []).dst = (withFragment awaiting).acc.dst ∧
        (fieldsOf 0x1234 0 []).ctl = (withFragment awaiting).acc.ctl ∧ 40 = (withFragment awaiting).acc.cmd) ∧
      (withFragment awaiting).seq.curOp = .enumerate) ∧
    ((Instr.rxGetCinfo, 9) ∈ receiveRows ∧ (fieldsOf 0x1234 0 [0x01, 0x02]).wellFormed = true ∧
      (nearlyFull awaitingPoll).seq.muxState = .awaitUni ∧ (nearlyFull awaitingPoll).acc.valid = true ∧
      (fieldsOf 0x1234 0 [0x01, 0x02]).src = (nearlyFull awaitingPoll).acc.src ∧
      (fieldsOf 0x1234 0 [0x01, 0x02]).dst = (nearlyFull awaitingPoll).acc.dst ∧
      (fieldsOf 0x1234 0 [0x01, 0x02]).ctl = (nearlyFull awaitingPoll).acc.ctl ∧
      9 = (nearlyFull awaitingPoll).acc.cmd ∧
      (nearlyFull awaitingPoll).params.reasmMax <
        (nearlyFull awaitingPoll).acc.len.toNat + (fieldsOf 0x1234 0 [0x01, 0x02]).payload.length ∧
      (nearlyFull awaitingPoll).seq.curOp = .poll) := ⟨⟨row_cmdPdelimit, by decide⟩, row_rxGetCinfo, by decide⟩
theorem test_witness_UnawaitedFrameIsCounted :
    (Instr.cmdPdelimit, 40) ∈ receiveRows ∧ (fieldsOf 0x1234 0 []).wellFormed = true ∧
      oneDevice.seq.muxState = .idle ∧ transmitting.seq.muxState = .tx ∧ settling.seq.muxState = .settle ∧
      held.seq.muxState = .hold ∧ tooLong.wellFormed = false :=
  ⟨row_cmdPdelimit, by decide, by decide, by decide, by decide, by decide, refused_tooLong⟩

/-- The tail of a discovery answer whose first four bytes, the serial number, came in an earlier fragment. -/
def answerTail : RxFields := { answer with payload := answer.payload.drop 4 }

/-- The gather has the first four bytes of the answer. -/
def midAnswer (s : State) : State := withFragmentOf 6 (answer.payload.take 4) s

theorem takes_answerTail (s : State) : TakesFragment s.params.reasmMax 6 answerTail (midAnswer s).acc := by
  intro _
  refine ⟨rfl, rfl, rfl, rfl, ?_⟩
  have : 255 ≤ s.params.reasmMax := Nat.le_add_right _ _
  exact le_trans (show 4 + answerTail.payload.length ≤ 255 by decide) this

theorem test_witness_NewDeviceIsAppended :
    (answer.wellFormed = true ∧ gathering.seq.muxState = .awaitGather ∧
      TakesFragment gathering.params.reasmMax 6 answer gathering.acc ∧ Memory.wf gathering.acc.buf = true ∧
      answer.pkt = 0 ∧ answer.src ≠ 0 ∧ 12 ≤ (accPayload gathering.acc ++ answer.payload).length ∧
      (∀ i < gathering.tab.devCount.toNat, deviceAddr gathering i ≠ answer.src) ∧
      gathering.tab.devCount.toNat < gathering.params.maxDevices) ∧
    (let s := midAnswer gathering
     answerTail.wellFormed = true ∧ s.seq.muxState = .awaitGather ∧
      TakesFragment s.params.reasmMax 6 answerTail s.acc ∧ Memory.wf s.acc.buf = true ∧ answerTail.pkt = 0 ∧
      answerTail.src ≠ 0 ∧ 12 ≤ (accPayload s.acc ++ answerTail.payload).length ∧
      (∀ i < s.tab.devCount.toNat, deviceAddr s i ≠ answerTail.src) ∧
      s.tab.devCount.toNat < s.params.maxDevices) ∧
    (let full := small (within .awaitGather .discover oneDevice)
     let other := { answer with src := 0x0042 }
     other.wellFormed = true ∧ full.seq.muxState = .awaitGather ∧
      TakesFragment full.params.reasmMax 6 other full.acc ∧ Memory.wf full.acc.buf = true ∧ other.pkt = 0 ∧
      other.src ≠ 0 ∧ 12 ≤ (accPayload full.acc ++ other.payload).length ∧
      (∀ i < full.tab.devCount.toNat, deviceAddr full i ≠ other.src) ∧
      full.params.maxDevices ≤ full.tab.devCount.toNat) :=
  ⟨⟨by decide, by decide, takes_first _ _ _, by decide, by decide, by decide, by decide, by decide, by decide⟩,
    ⟨by decide, by decide, takes_answerTail gathering, by decide, by decide, by decide, by decide, by decide,
      by decide⟩,
    by decide, by decide, takes_first _ _ _, by decide, by decide, by decide, by decide, by decide, by decide⟩

/-- The table of one device is sound, whatever the sequencer does. -/
theorem oneDevice_tableSound (m : MuxState) (op : CurOp) : DeviceTableSound (within m op oneDevice) where
  count := by change 1 ≤ 16; decide
  nonzero := by
    intro i hi
    have hi : i < 1 := hi
    obtain rfl : i = 0 := by omega
    change (0x1234 : Half) ≠ 0
    decide
  keyed := by
    intro i j hij hj
    have hj : j < 1 := hj
    omega
  empty := by
    intro i hi
    have hi : 1 ≤ i := hi
    by_cases h : i < 16
    · interval_cases i <;> rfl
    · simp only [deviceAt, Vector.getElem?_eq_none (Nat.le_of_not_lt h), Option.getD_none]

theorem test_witness_KnownDeviceIsUpdatedInPlace :
    (let s := within .awaitGather .discover oneDevice
     answer.wellFormed = true ∧ s.seq.muxState = .awaitGather ∧ TakesFragment s.params.reasmMax 6 answer s.acc ∧
      Memory.wf s.acc.buf = true ∧ DeviceTableSound s ∧ answer.pkt = 0 ∧
      12 ≤ (accPayload s.acc ++ answer.payload).length ∧ 0 < s.tab.devCount.toNat ∧ deviceAddr s 0 = answer.src) ∧
    (let s := within .awaitGather .discover (midAnswer oneDevice)
     answerTail.wellFormed = true ∧ s.seq.muxState = .awaitGather ∧
      TakesFragment s.params.reasmMax 6 answerTail s.acc ∧ Memory.wf s.acc.buf = true ∧ DeviceTableSound s ∧
      answerTail.pkt = 0 ∧ 12 ≤ (accPayload s.acc ++ answerTail.payload).length ∧ 0 < s.tab.devCount.toNat ∧
      deviceAddr s 0 = answerTail.src) :=
  ⟨⟨by decide, by decide, takes_first _ _ _, by decide, oneDevice_tableSound _ _, by decide, by decide, by decide,
      by decide⟩,
    by decide, by decide, takes_answerTail oneDevice, by decide,
    ⟨(oneDevice_tableSound .idle .none).count, (oneDevice_tableSound .idle .none).nonzero,
      (oneDevice_tableSound .idle .none).keyed, (oneDevice_tableSound .idle .none).empty⟩,
    by decide, by decide, by decide, by decide⟩
theorem test_witness_OtherGatheredResponseIsUnsolicited :
    (let short := { answer with payload := answer.payload.take 11 }
     let zero := { answer with src := 0 }
     ((Instr.rxGetCinfo, 9) ∈ receiveRows ∧ (Instr.rxGetNetStart, 6) ∈ receiveRows) ∧
      (answer.wellFormed = true ∧ zero.wellFormed = true ∧ short.wellFormed = true) ∧
      gathering.seq.muxState = .awaitGather ∧ (∀ cmd f, TakesFragment gathering.params.reasmMax cmd f gathering.acc) ∧
      Memory.wf gathering.acc.buf = true ∧ (answer.pkt = 0 ∧ zero.pkt = 0 ∧ short.pkt = 0) ∧ (9 : Byte) ≠ 6 ∧
      zero.src = 0 ∧ (accPayload gathering.acc ++ short.payload).length < 12) ∧
    (let s := midAnswer gathering
     let short := { answerTail with payload := answerTail.payload.take 7 }
     short.wellFormed = true ∧ s.seq.muxState = .awaitGather ∧ s.acc.valid = true ∧
      TakesFragment s.params.reasmMax 6 short s.acc ∧ Memory.wf s.acc.buf = true ∧ short.pkt = 0 ∧
      (accPayload s.acc ++ short.payload).length < 12) :=
  ⟨⟨⟨row_rxGetCinfo, row_rxGetNetStart⟩, by decide, by decide, fun _ _ => takes_first _ _ _, by decide⟩,
    by decide, by decide, by decide, fun _ => by decide, by decide, by decide, by decide⟩
theorem test_witness_FragmentErrorKeepsTheGather :
    let s := nearlyFull gathering
    let other := fieldsOf 0x0042 0 []
    let two := fieldsOf 0x1234 0 [0x01, 0x02]
    (Instr.rxGetCinfo, 9) ∈ receiveRows ∧ other.wellFormed = true ∧ two.wellFormed = true ∧
      s.seq.muxState = .awaitGather ∧ s.acc.valid = true ∧
      ¬(other.src = s.acc.src ∧ other.dst = s.acc.dst ∧ other.ctl = s.acc.ctl ∧ 9 = s.acc.cmd) ∧
      s.params.reasmMax < s.acc.len.toNat + two.payload.length := ⟨row_rxGetCinfo, by decide⟩
theorem test_witness_NextSlotIsTheSmallestLater :
    nextSlot (twoSlots held) 0 0 = some (0, 7) ∧ nextSlot (twoSlots held) 0 7 = none ∧
      firstSlot (twoSlots held) = some (0, 0) ∧ firstSlot State.reset = none ∧ 7 < 8 := by decide
theorem test_witness_requestedSlot : requestedSlot (twoSlots held) 0 7 ∧ slotBefore 0 0 0 7 :=
  ⟨⟨by decide, by decide, by decide⟩, .inr ⟨rfl, by decide⟩⟩
theorem test_witness_TimeoutEndsTheAwait :
    (∀ s ∈ [awaiting, awaitingPoll, gathering, within .awaitGather .discover oneDevice],
      (given [.rxTimeout] s).env.inputs = [.rxTimeout] ∧ (given [.rxTimeout] s).rx.state = .idle) ∧
    (awaiting.seq.muxState = .awaitUni ∧ awaiting.seq.curOp = .enumerate) ∧
    (awaitingPoll.seq.muxState = .awaitUni ∧ awaitingPoll.seq.curOp = .poll) ∧
    gathering.seq.muxState = .awaitGather := by
  refine ⟨fun s h => ?_, by decide, by decide, by decide⟩
  simp only [List.mem_cons, List.not_mem_nil, or_false] at h
  rcases h with rfl | rfl | rfl | rfl <;> decide
theorem test_witness_EventsOutOfContractChangeNothing :
    ((given [.rxTimeout] settling).env.inputs = [.rxTimeout] ∧ settling.seq.muxState ≠ .awaitUni ∧
      settling.seq.muxState ≠ .awaitGather) ∧
    ((given [.rxTimeout] parsing).env.inputs = [.rxTimeout] ∧ parsing.rx.state ≠ .idle) ∧
    ((given [.settleElapsed] awaiting).env.inputs = [.settleElapsed] ∧ awaiting.seq.muxState ≠ .settle) ∧
    ((given [.rxQuiet] awaiting).env.inputs = [.rxQuiet] ∧ awaiting.rx.state = .idle) := by decide
theorem test_witness_LinkErrorEndsTheOperation :
    ((given [.linkError] oneDevice).env.inputs = [.linkError] ∧ oneDevice.seq.muxState = .idle) ∧
    ((given [.linkError] parsing).env.inputs = [.linkError] ∧ parsing.seq.muxState ≠ .idle) := by decide
theorem test_witness_EveryStepKeepsBuffersSound :
    ∃ t, step (given [.rxByte 0xAA] parsing) = .next t ∧ BuffersSound (given [.rxByte 0xAA] parsing) :=
  ⟨_, rfl, ⟨by decide, by decide⟩, ⟨by decide, by decide⟩, ⟨by decide, by decide⟩, ⟨by decide, by decide⟩, by decide,
    by decide, by decide⟩
theorem test_witness_EveryStepKeepsSequencerSound :
    (∃ t, step transmitting = .next t ∧ SequencerSound transmitting) ∧
    (∃ t, step (given [.rxTimeout] (withFragment awaiting)) = .next t ∧
      SequencerSound (given [.rxTimeout] (withFragment awaiting))) :=
  ⟨⟨_, rfl, by decide, by decide, by decide, by decide, by decide⟩,
    ⟨_, rfl, by decide, by decide, by decide, by decide, by decide⟩⟩
theorem test_witness_EveryStepKeepsDeviceTableSound :
    ∃ t, step (within .awaitGather .discover oneDevice) = .next t ∧
      DeviceTableSound (within .awaitGather .discover oneDevice) := ⟨_, rfl, oneDevice_tableSound _ _⟩
theorem test_witness_EveryStepKeepsCodesLegal : ∃ t, step transmitting = .next t ∧ CodesLegal transmitting :=
  ⟨_, rfl, by decide, by decide, by decide⟩
theorem test_witness_EveryStepKeepsTransmissionSound :
    ∃ t, step transmitting = .next t ∧ BuffersSound transmitting ∧ TransmissionSound transmitting :=
  ⟨_, rfl, ⟨⟨by decide, by decide⟩, ⟨by decide, by decide⟩, ⟨by decide, by decide⟩, ⟨by decide, by decide⟩, by decide,
    by decide, by decide⟩, fun _ => ⟨.txSynOnline 5, by decide⟩, by decide, fun _ => ⟨[], by decide⟩⟩
theorem test_witness_EveryStepKeepsCursorSound :
    ∃ t, step awaiting = .next t ∧ SequencerSound awaiting ∧ DeviceTableSound awaiting ∧ CursorSound awaiting :=
  ⟨_, rfl, ⟨by decide, by decide, by decide, by decide, by decide⟩, oneDevice_tableSound _ _, by decide, by decide⟩
theorem test_witness_OperandsStandWhileBusy :
    let s := given [.hostWrite 0x00C 0x5] held
    s.seq.muxState ≠ .idle ∧ stepResets s = false ∧ ∃ t, step s = .next t := ⟨by decide, by decide, _, rfl⟩
theorem test_witness_OnlyDiscoveryWritesTheDeviceTable :
    let s := given [.hostWrite 0x004 0x1] held
    s.seq.muxState ≠ .awaitGather ∧ stepResets s = false ∧ stepDiscovers s = false ∧ ∃ t, step s = .next t :=
  ⟨by decide, by decide, by decide, _, rfl⟩
theorem test_witness_InterruptLineFollowsItsSources : SequencerSound held :=
  ⟨by decide, by decide, by decide, by decide, by decide⟩

end Sys2Proof.Tests
end

section
/-! SUPPORT. How a step finds its event, and what entering `tx_next` leaves alone; with them O34. -/

namespace Sys2Proof.Machine

/-! ### The event of a step -/

/-- A scheduled event is what the step takes (00_scope R6). -/
theorem step_of_event {s : State} {e : Event} {rest : List Event} (h : s.env.inputs = e :: rest) :
    step s = (fetchEvent e (setInputs rest s)).outcome := by
  rw [step_eq_outcome, fetch, h]

/-- With nothing scheduled the step is the block's own turn (42_multiplexer R119; log 1). -/
theorem step_of_empty_schedule {s : State} (h : s.env.inputs = []) : step s = .next (blockStep s) := by
  rw [step_eq_outcome, fetch, h]
  rfl

theorem setInputs_of_inputs_eq {s : State} {es : List Event} (h : s.env.inputs = es) : setInputs es s = s := by
  subst h
  rfl

/-- A turn of the block, scheduled or not, is its internal step with the schedule moved on (00_scope R6, R119). -/
theorem step_of_block_turn {s : State} {rest : List Event}
    (h : (s.env.inputs = [] ∧ rest = []) ∨ s.env.inputs = .blockStep :: rest) :
    step s = .next (blockStep (setInputs rest s)) := by
  rcases h with ⟨hempty, rfl⟩ | hevent
  · rw [step_of_empty_schedule hempty, setInputs_of_inputs_eq hempty]
  · rw [step_of_event hevent]
    rfl

/-! ### enterNext -/

/-- Entering `tx_next` writes the sequencer's state and the accumulator's `valid`, nothing else (R119). -/
theorem enterNext_eq (s : State) : enterNext s =
    { s with seq := (enterNext s).seq, acc := { s.acc with valid := (enterNext s).acc.valid } } := by
  rcases enterNext_cases s with ⟨_, h⟩ | ⟨_, h⟩ | ⟨_, h⟩ <;> rw [h] <;> rfl

@[simp] theorem enterNext_params (s : State) : (enterNext s).params = s.params := by rw [enterNext_eq]
@[simp] theorem enterNext_tx (s : State) : (enterNext s).tx = s.tx := by rw [enterNext_eq]
@[simp] theorem enterNext_rx (s : State) : (enterNext s).rx = s.rx := by rw [enterNext_eq]
@[simp] theorem enterNext_tab (s : State) : (enterNext s).tab = s.tab := by rw [enterNext_eq]
@[simp] theorem enterNext_resp (s : State) : (enterNext s).resp = s.resp := by rw [enterNext_eq]
@[simp] theorem enterNext_ctl (s : State) : (enterNext s).ctl = s.ctl := by rw [enterNext_eq]
@[simp] theorem enterNext_cnt (s : State) : (enterNext s).cnt = s.cnt := by rw [enterNext_eq]
@[simp] theorem enterNext_env (s : State) : (enterNext s).env = s.env := by rw [enterNext_eq]

theorem enterNext_of_awaitUni {s : State} (h : s.seq.txNext = .awaitUni) :
    enterNext s = reasmClear { s with seq := { s.seq with muxState := .awaitUni } } := by
  rw [enterNext, h]

theorem enterNext_of_awaitGather {s : State} (h : s.seq.txNext = .awaitGather) :
    enterNext s = reasmClear { s with seq := { s.seq with muxState := .awaitGather } } := by
  rw [enterNext, h]

theorem enterNext_of_settle {s : State} (h : s.seq.txNext = .settle) :
    enterNext s = { s with seq := { s.seq with muxState := .settle } } := by
  rw [enterNext, h]

/-- The transmission is over once `tx_next` is entered. -/
theorem enterNext_muxState_ne_tx (s : State) : (enterNext s).seq.muxState ≠ .tx := by
  rcases enterNext_cases s with ⟨_, h⟩ | ⟨_, h⟩ | ⟨_, h⟩ <;> rw [h] <;> nofun

/-! ### The block's turn -/

/-- Settles O34: a turn of the block is `blockStep` over the rest of the schedule, and R119 gives its four cases. -/
theorem blockStepSendsOneByte : Obligations.BlockStepSendsOneByte := by
  unfold Obligations.BlockStepSendsOneByte
  intro s rest h
  rw [step_of_block_turn h]
  rcases blockStep_cases (setInputs rest s) with ⟨hm, ht⟩ | ⟨hm, hmore, ht⟩ | ⟨hm, hlast, habort, ht⟩ |
    ⟨hm, hlast, hclear, ht⟩
  case inl => exact ⟨fun _ => congrArg _ ht, fun htx => absurd htx hm⟩
  all_goals refine ⟨fun hne => absurd hm hne, fun _ => ⟨_, rfl, ?_⟩⟩; rw [ht]
  · exact ⟨rfl, rfl, rfl, rfl, rfl, rfl, rfl, fun _ => ⟨rfl, rfl, rfl⟩, fun hlast => absurd hlast hmore,
      fun hlast => absurd hlast hmore⟩
  · exact ⟨rfl, rfl, rfl, rfl, rfl, rfl, rfl, fun hmore => absurd hlast hmore, fun _ _ => ⟨rfl, rfl, rfl⟩,
      fun _ hclear => absurd (habort.symm.trans hclear) nofun⟩
  · refine ⟨enterNext_env _, enterNext_tx _, enterNext_params _, enterNext_rx _, enterNext_tab _, enterNext_resp _,
      enterNext_cnt _, fun hmore => absurd hlast hmore, fun _ habort => absurd (habort.symm.trans hclear) nofun,
      fun _ _ => ⟨enterNext_ctl _, fun hnext => ?_, fun hnext => ?_, fun hnext => ?_⟩⟩
    · rw [enterNext_of_awaitUni (s := emitByte (setInputs rest s)) hnext]
      exact ⟨rfl, rfl⟩
    · rw [enterNext_of_awaitGather (s := emitByte (setInputs rest s)) hnext]
      exact ⟨rfl, rfl⟩
    · rw [enterNext_of_settle (s := emitByte (setInputs rest s)) hnext]
      exact ⟨rfl, rfl⟩

end Sys2Proof.Machine
end

section
/-! SUPPORT. What any one step can do to the transmission, said once as `TransmitMove`; with it O56. -/

namespace Sys2Proof.Machine

/-! ### Request frames -/

/-- The bytes are those of a transmit row, so they fit `tx_len` (42_multiplexer R102 to R106). -/
structure RequestFrame (frame : List Byte) : Prop where
  row : ∃ i, encode i = (.transmit, frame)
  nonempty : 0 < frame.length
  short : frame.length < 2 ^ 9

theorem requestFrame_netStart : RequestFrame netStartRequest :=
  ⟨⟨.txGetNetStart, rfl⟩, by simp [netStartRequest], by simp [netStartRequest]⟩

theorem requestFrame_cinfo (dst : Half) : RequestFrame (cinfoRequest dst) :=
  ⟨⟨.txGetCinfo dst, rfl⟩, by simp [cinfoRequest], by simp [cinfoRequest]⟩

theorem requestFrame_syn (t : Word) : RequestFrame (synRequest t) :=
  ⟨⟨.txSynOnline t, rfl⟩, by simp [synRequest], by simp [synRequest]⟩

theorem requestFrame_data (dst : Half) (type1 type2 index : Byte) :
    RequestFrame (dataRequest dst type1 type2 index) :=
  ⟨⟨.txGetData dst type1 type2 index, rfl⟩, by simp [dataRequest], by simp [dataRequest]⟩

/-! ### The moves of the transmitter -/

/-- What a step from `s` to `t` can do to the transmission. -/
inductive TransmitMove (s t : State) : Prop where
  /-- nothing is sent, and the sequencer is not in TX afterwards -/
  | rest (left : t.seq.muxState ≠ .tx) (stream : t.env.txStream = s.env.txStream)
  /-- nothing is sent, and the transmission stands as it was -/
  | stand (mux : t.seq.muxState = s.seq.muxState) (tx : t.tx = s.tx) (stream : t.env.txStream = s.env.txStream)
  /-- a request frame is put at the start of `tx_buf`, none of it sent yet (R102) -/
  | start (frame : List Byte) (request : RequestFrame frame)
      (tx : t.tx = { buf := Memory.writeBytes s.tx.buf 0 frame, len := BitVec.ofNat 9 frame.length, idx := 0 })
      (stream : t.env.txStream = s.env.txStream)
  /-- the byte at `tx_idx` is sent, and TX is left after the last one (R119) -/
  | send (mux : s.seq.muxState = .tx) (tx : t.tx = { s.tx with idx := s.tx.idx + 1 })
      (stream : t.env.txStream = s.env.txStream ++ [Memory.read s.tx.buf s.tx.idx.toNat])
      (more : t.seq.muxState = .tx → s.tx.idx + 1 ≠ s.tx.len)

/-- A move looks only at the sequencer's state, the transmit state and the transmit stream of where it starts. -/
theorem TransmitMove.congr {s s' t : State} (h : TransmitMove s t) (mux : s.seq.muxState = s'.seq.muxState)
    (tx : s.tx = s'.tx) (stream : s.env.txStream = s'.env.txStream) : TransmitMove s' t := by
  cases h with
  | rest left same => exact .rest left (same.trans stream)
  | stand mux' tx' same => exact .stand (mux'.trans mux) (tx'.trans tx) (same.trans stream)
  | start frame request tx' same => exact .start frame request (tx ▸ tx') (same.trans stream)
  | send mux' tx' sent more =>
    exact .send (mux ▸ mux') (tx ▸ tx') (stream ▸ tx ▸ sent) (tx ▸ more)

theorem transmitMove_startTx {frame : List Byte} (h : RequestFrame frame) (next : TxNext) (s : State) :
    TransmitMove s (startTx frame next s) := .start frame h rfl rfl

theorem transmitMove_complete (c : Code) (s : State) : TransmitMove s (complete c s) := .rest nofun rfl

theorem transmitMove_refuse (s : State) : TransmitMove s (refuse s) := .stand rfl rfl rfl

theorem transmitMove_reset (s : State) : TransmitMove s (resetState s) := .rest nofun rfl

/-! ### The block's turn -/

theorem transmitMove_blockStep (s : State) : TransmitMove s (blockStep s) := by
  rcases blockStep_cases s with ⟨_, h⟩ | ⟨hm, hmore, h⟩ | ⟨hm, _, _, h⟩ | ⟨hm, _, _, h⟩ <;> rw [h]
  · exact .stand rfl rfl rfl
  · exact .send hm rfl rfl fun _ => hmore
  · exact .send hm rfl rfl nofun
  · exact .send hm (enterNext_tx _) (by simp) fun htx => absurd htx (enterNext_muxState_ne_tx _)

/-! ### Host operations -/

theorem transmitMove_whenIdle {act : State → State} (h : ∀ s, TransmitMove s (act s)) (s : State) :
    TransmitMove s (whenIdle act s) := by
  rcases whenIdle_cases act s with ⟨_, hs⟩ | ⟨_, hs⟩ <;> rw [hs]
  · exact h s
  · exact transmitMove_refuse s

theorem transmitMove_discoverIdle (s : State) : TransmitMove s (discoverIdle s) :=
  (transmitMove_startTx requestFrame_netStart .awaitGather (clearTables (accept .discover s))).congr rfl rfl rfl

/-- ENUMERATE in IDLE (R113): refused by its index, or the device's request is started. -/
theorem enumerateIdle_cases (s : State) :
    (s.tab.devCount.toNat ≤ argDeviceIndex s ∧ enumerateIdle s = complete .badDevice (accept .enumerate s)) ∨
    (argDeviceIndex s < s.tab.devCount.toNat ∧ enumerateIdle s =
      startTx (cinfoRequest (deviceAddr s (argDeviceIndex s))) .awaitUni
        (latchDevice (argDeviceIndex s) (accept .enumerate s))) := by
  by_cases h : s.tab.devCount.toNat ≤ argDeviceIndex s
  · exact .inl ⟨h, if_pos h⟩
  · exact .inr ⟨Nat.lt_of_not_le h, if_neg h⟩

theorem transmitMove_enumerateIdle (s : State) : TransmitMove s (enumerateIdle s) := by
  rcases enumerateIdle_cases s with ⟨_, h⟩ | ⟨_, h⟩ <;> rw [h]
  · exact (transmitMove_complete .badDevice (accept .enumerate s)).congr rfl rfl rfl
  · exact (transmitMove_startTx (requestFrame_cinfo _) .awaitUni (latchDevice _ (accept .enumerate s))).congr
      rfl rfl rfl

theorem transmitMove_pollIdle (s : State) : TransmitMove s (pollIdle s) :=
  (transmitMove_startTx (requestFrame_syn _) .settle (latchPoll _ (accept .poll s))).congr rfl rfl rfl

theorem transmitMove_pollSlot (slot : Option (Nat × Nat)) (s : State) : TransmitMove s (pollSlot slot s) := by
  rcases pollSlot_cases slot s with ⟨_, h⟩ | ⟨d, k, _, h⟩ <;> rw [h]
  · exact transmitMove_complete .ok s
  · exact (transmitMove_startTx (requestFrame_data _ _ _ _) .awaitUni (setCursor d k s)).congr rfl rfl rfl

theorem transmitMove_continueHeld (s : State) : TransmitMove s (continueHeld s) :=
  (transmitMove_pollSlot _ { s with resp := { s.resp with valid := false } }).congr rfl rfl rfl

theorem transmitMove_badOp (s : State) : TransmitMove s (complete .badOp (accept .none s)) :=
  (transmitMove_complete .badOp (accept .none s)).congr rfl rfl rfl

theorem transmitMove_reservedOp (s : State) : TransmitMove s (reservedOp s) := by
  rcases reservedOp_cases s with ⟨_, h⟩ | ⟨_, h⟩ <;> rw [h]
  · exact transmitMove_badOp s
  · exact transmitMove_refuse s

theorem transmitMove_continuePoll {s t : State} (h : execContinuePoll s = .next t) : TransmitMove s t := by
  rcases execContinuePoll_cases s with ⟨_, hs⟩ | ⟨_, hs⟩ | ⟨_, _, hs⟩ <;>
    obtain rfl := Host.Outcome.next.inj (hs.symm.trans h)
  · exact transmitMove_badOp s
  · exact transmitMove_continueHeld s
  · exact transmitMove_refuse s

/-- ABORT during a transmission only leaves a mark for its end (R116). -/
theorem transmitMove_abort {s t : State} (h : execAbort s = .next t) : TransmitMove s t := by
  rcases execAbort_cases s with ⟨_, hs⟩ | ⟨_, hs⟩ | ⟨_, _, hs⟩ <;>
    obtain rfl := Host.Outcome.next.inj (hs.symm.trans h)
  · exact .stand rfl rfl rfl
  · exact .stand rfl rfl rfl
  · exact transmitMove_complete .aborted s

theorem transmitMove_command {w : Word} {s t : State} (h : exec (decodeCommand w) s = .next t) :
    TransmitMove s t := by
  rcases command_cases w s with hs | hs | hs | hs | hs | hs | hs | hs <;> rw [hs] at h
  case inr.inr.inr.inr.inl => exact transmitMove_continuePoll h
  case inr.inr.inr.inr.inr.inl => exact transmitMove_abort h
  all_goals obtain rfl := Host.Outcome.next.inj h
  · exact .stand rfl rfl rfl
  · exact transmitMove_whenIdle transmitMove_discoverIdle s
  · exact transmitMove_whenIdle transmitMove_enumerateIdle s
  · exact transmitMove_whenIdle transmitMove_pollIdle s
  · exact transmitMove_reservedOp s
  · exact transmitMove_reset s

theorem transmitMove_writeReg (w : Word) (s : State) (r : HostReg) : TransmitMove s (writeReg w s r) := by
  cases r with
  | arg | crt =>
    rw [writeReg]
    split <;> exact .stand rfl rfl rfl
  | _ => exact .stand rfl rfl rfl

/-! ### Link events -/

/-- A conclusion leaves the await for IDLE or HOLD (R123). -/
theorem transmitMove_concludeOp (c : Code) (s : State) : TransmitMove s (concludeOp c s) := by
  rcases concludeOp_cases c s with ⟨_, h⟩ | ⟨_, h⟩ <;> rw [h] <;> exact .rest nofun rfl

theorem transmitMove_uniResult (res : ReasmResult) (s : State) : TransmitMove s (uniResult res s) := by
  cases res with
  | pending => exact .stand rfl rfl rfl
  | complete r => exact (transmitMove_concludeOp .ok (storeResponse r s)).congr rfl rfl rfl
  | inconsistent =>
    exact (transmitMove_concludeOp .fragmentInconsistent (storeFailure .fragmentInconsistent s)).congr rfl rfl rfl
  | overflow => exact (transmitMove_concludeOp .reasmOverflow (storeFailure .reasmOverflow s)).congr rfl rfl rfl

theorem transmitMove_gatherInsert (a : Half) (serial : Word) (tag : Vector Byte 8) (s : State) :
    TransmitMove s (gatherInsert a serial tag s) := by
  rcases gatherInsert_cases a serial tag s with ⟨_, _, h⟩ | ⟨_, _, h⟩ | ⟨_, _, h⟩ <;> rw [h] <;>
    exact .stand rfl rfl rfl

theorem transmitMove_gatherResult (res : ReasmResult) (s : State) : TransmitMove s (gatherResult res s) := by
  cases res with
  | complete r =>
    rw [gatherResult, gatherResponse]
    split
    · exact transmitMove_gatherInsert _ _ _ s
    · exact .stand rfl rfl rfl
  | pending | inconsistent | overflow => exact .stand rfl rfl rfl

theorem transmitMove_deliver (f : Frame) (s : State) : TransmitMove s (deliver f s) := by
  rcases deliver_cases f s with ⟨_, h⟩ | ⟨_, h⟩ | ⟨_, _, h⟩ <;> rw [h]
  · exact (transmitMove_uniResult _ (reasmState f s)).congr rfl rfl rfl
  · exact (transmitMove_gatherResult _ (reasmState f s)).congr rfl rfl rfl
  · exact .stand rfl rfl rfl

theorem transmitMove_rxTimeout (s : State) : TransmitMove s (doRxTimeout s) := by
  rcases doRxTimeout_cases s with ⟨_, _, h⟩ | ⟨_, _, _, h⟩ | ⟨_, _, _, h⟩ | ⟨_, h⟩ <;> rw [h]
  · exact (transmitMove_concludeOp .noResponse (storeFailure .noResponse s)).congr rfl rfl rfl
  · exact transmitMove_complete _ s
  · exact transmitMove_complete _ s
  · exact .stand rfl rfl rfl

theorem transmitMove_linkError (s : State) : TransmitMove s (doLinkError s) := by
  rcases doLinkError_cases s with ⟨_, h⟩ | ⟨_, h⟩ <;> rw [h]
  · exact .rest nofun rfl
  · exact .stand rfl rfl rfl

/-! ### Every step -/

theorem transmitMove_of_eventCases {s t : State} {e : Event} (h : EventCases s t e) : TransmitMove s t := by
  cases e with
  | hostRead off => obtain rfl := h; exact .stand rfl rfl rfl
  | hostWrite off w =>
    rcases h with ⟨_, hexec⟩ | ⟨_, rfl⟩
    · exact transmitMove_command hexec
    · exact transmitMove_writeReg w s _
  | reset => obtain rfl := h; exact transmitMove_reset s
  | blockStep => obtain rfl := h; exact transmitMove_blockStep s
  | rxByte b => obtain rfl := h; exact .stand rfl rfl rfl
  | rxQuiet =>
    rcases h with ⟨_, rfl⟩ | ⟨err, _, _, rfl⟩ | ⟨f, _, _, rfl⟩
    · exact .stand rfl rfl rfl
    · cases err <;> exact .stand rfl rfl rfl
    · exact (transmitMove_deliver f (closeBuffer s)).congr rfl rfl rfl
  | rxTimeout => obtain rfl := h; exact transmitMove_rxTimeout s
  | settleElapsed =>
    rcases h with ⟨_, rfl⟩ | ⟨_, rfl⟩
    · exact .stand rfl rfl rfl
    · exact transmitMove_pollSlot _ s
  | linkError => obtain rfl := h; exact transmitMove_linkError s

/-- Every step makes one of the four moves (00_scope R6). -/
theorem step_transmitMove {s t : State} (h : step s = .next t) : TransmitMove s t := by
  rcases step_cases h with ⟨_, rfl⟩ | ⟨e, rest, _, hevent⟩
  · exact transmitMove_blockStep s
  · exact (transmitMove_of_eventCases hevent).congr rfl rfl rfl

/-! ### The transmission invariant -/

theorem Memory.take_readBytes (m : Memory) (a : Nat) {n k : Nat} (h : k ≤ n) :
    (Memory.readBytes m a n).take k = Memory.readBytes m a k := by
  obtain ⟨j, rfl⟩ := Nat.exists_eq_add_of_le h
  rw [Memory.readBytes_append, List.take_left' (Memory.readBytes_length m a k)]

/-- The part of the frame that is out after one more byte (R50, R119). -/
theorem take_succ_txFrame {s : State} {n : Nat} (h : n < s.tx.len.toNat) :
    (txFrame s).take (n + 1) = (txFrame s).take n ++ [Memory.read s.tx.buf n] := by
  rw [txFrame, Memory.take_readBytes (k := n + 1) _ _ h, Memory.take_readBytes _ _ h.le, Memory.readBytes_append,
    Nat.zero_add]
  rfl

theorem TransmissionSound.of_muxState_ne_tx {s : State} (h : s.seq.muxState ≠ .tx) : TransmissionSound s :=
  ⟨fun htx => absurd htx h, fun htx => absurd htx h, fun htx => absurd htx h⟩

theorem TransmissionSound.of_stand {s t : State} (h : TransmissionSound s) (mux : t.seq.muxState = s.seq.muxState)
    (tx : t.tx = s.tx) (stream : t.env.txStream = s.env.txStream) : TransmissionSound t := by
  have hframe : txFrame t = txFrame s := by rw [txFrame, tx, txFrame]
  refine ⟨fun htx => ?_, fun htx => ?_, fun htx => ?_⟩ <;> rw [mux] at htx
  · exact hframe ▸ h.request htx
  · exact tx ▸ h.unfinished htx
  · rw [stream, hframe, tx]
    exact h.sent htx

/-- A started request frame is sound: all of it is in `tx_buf` and none of it is sent (R102). -/
theorem TransmissionSound.of_start {m : Memory} {t : State} {frame : List Byte} (hm : Memory.wf m = true)
    (request : RequestFrame frame)
    (tx : t.tx = { buf := Memory.writeBytes m 0 frame, len := BitVec.ofNat 9 frame.length, idx := 0 }) :
    TransmissionSound t := by
  have hlen : t.tx.len.toNat = frame.length := by
    rw [tx]
    exact Nat.mod_eq_of_lt request.short
  have hidx : t.tx.idx.toNat = 0 := by
    rw [tx]
    rfl
  have hframe : txFrame t = frame := by
    rw [txFrame, hlen, tx]
    exact Memory.readBytes_writeBytes hm 0 frame
  refine ⟨fun _ => hframe ▸ request.row, fun _ => ?_, fun _ => ⟨t.env.txStream, ?_⟩⟩
  · rw [hidx, hlen]
    exact request.nonempty
  · rw [hidx, List.take_zero, List.append_nil]

/-- Sending a byte that is not the last keeps the transmission sound (R119). -/
theorem TransmissionSound.of_send {s t : State} (h : TransmissionSound s) (mux : s.seq.muxState = .tx)
    (tx : t.tx = { s.tx with idx := s.tx.idx + 1 })
    (stream : t.env.txStream = s.env.txStream ++ [Memory.read s.tx.buf s.tx.idx.toNat])
    (more : s.tx.idx + 1 ≠ s.tx.len) : TransmissionSound t := by
  have hlt := h.unfinished mux
  have hframe : txFrame t = txFrame s := by rw [txFrame, tx, txFrame]
  have hidx : t.tx.idx.toNat = s.tx.idx.toNat + 1 := by
    rw [tx]
    bv_omega
  have hlen : t.tx.len = s.tx.len := by rw [tx]
  obtain ⟨before, hsent⟩ := h.sent mux
  refine ⟨fun _ => hframe ▸ h.request mux, fun _ => ?_, fun _ => ⟨before, ?_⟩⟩
  · rw [hidx, hlen]
    bv_omega
  · rw [stream, hsent, hidx, hframe, take_succ_txFrame hlt, List.append_assoc]

/-- Every move keeps a sound transmission sound, when `tx_buf` is canonical. -/
theorem TransmissionSound.of_move {s t : State} (hbuf : Memory.wf s.tx.buf = true) (h : TransmissionSound s)
    (hmove : TransmitMove s t) : TransmissionSound t := by
  cases hmove with
  | rest left _ => exact .of_muxState_ne_tx left
  | stand mux tx stream => exact h.of_stand mux tx stream
  | start frame request tx _ => exact .of_start hbuf request tx
  | send mux tx stream more =>
    by_cases htx : t.seq.muxState = .tx
    · exact h.of_send mux tx stream (more htx)
    · exact .of_muxState_ne_tx htx

/-- Only the sending move reaches the transmit stream. -/
theorem TransmitMove.stream_cases {s t : State} (h : TransmitMove s t) :
    t.env.txStream = s.env.txStream ∨
      (s.seq.muxState = .tx ∧ t.env.txStream = s.env.txStream ++ [Memory.read s.tx.buf s.tx.idx.toNat] ∧
        t.tx.idx = s.tx.idx + 1) := by
  cases h with
  | rest _ stream | stand _ _ stream | start _ _ _ stream => exact .inl stream
  | send mux tx stream _ => exact .inr ⟨mux, stream, congrArg Transmitter.idx tx⟩

/-- Settles O56: every step makes a `TransmitMove`; each move keeps the invariant and only `send` adds to the stream. -/
theorem everyStepKeepsTransmissionSound : Obligations.EveryStepKeepsTransmissionSound := by
  unfold Obligations.EveryStepKeepsTransmissionSound
  refine ⟨fun s t hbuffers hsound hstep => ?_, fun s t hstep => (step_transmitMove hstep).stream_cases⟩
  obtain ⟨hbuf, _⟩ := hbuffers.txBuf
  exact hsound.of_move hbuf (step_transmitMove hstep)

end Sys2Proof.Machine
end

section
/-! SUPPORT. What a buffer with an `Ok` verdict of `Decode` looks like (40_frame_codec R72). -/

namespace Sys2Proof

/-! ### The layout of a good buffer -/

/-- The body of a frame: its bytes after the wake bytes (30_encoding R52). -/
def bodyBytes (f : Frame) : List Byte :=
  [0x68, BitVec.ofNat 8 f.payload.length, BitVec.ofNat 8 f.payload.length, 0x68]
    ++ (headerBytes f.src f.dst f.ctl f.pkt f.cmd ++ f.payload) ++ trailerBytes f.crc

/-- The tests a buffer with an `Ok` verdict has passed, on its body, and the frame read from it (R72). -/
theorem decodeFrame_ok {buf : List Byte} {f : Frame} (h : decodeFrame buf = .ok f) :
    ∃ (body : List Byte) (n : Nat), frameBody buf = body ∧ (body.getD 1 0).toNat = n ∧
      body.getD 0 0 = 0x68 ∧ body.getD 3 0 = 0x68 ∧ body.length = 14 + n ∧ body.getD (13 + n) 0 = 0x16 ∧
      body.getD 2 0 = body.getD 1 0 ∧
      checksum ((body.drop 4).take (7 + n)) = f.crc ∧
      f = { src := le16 (body.getD 4 0) (body.getD 5 0), dst := le16 (body.getD 6 0) (body.getD 7 0)
            ctl := body.getD 8 0, pkt := body.getD 9 0, cmd := body.getD 10 0
            payload := (body.drop 11).take n
            crc := le16 (body.getD (11 + n) 0) (body.getD (12 + n) 0) } := by
  refine ⟨_, _, rfl, rfl, ?_⟩
  unfold decodeFrame at h
  dsimp only at h
  split_ifs at h with _ hmarks hlength hend hlens hsum
  obtain rfl := Verdict.ok.inj h
  push Not at hmarks hlength hend hlens hsum
  obtain ⟨hstart, hstart'⟩ := hmarks
  exact ⟨hstart, hstart', hlength, hend, hlens.symm, hsum, rfl⟩

/-- A list from a position on is the `k` bytes there followed by the rest. -/
theorem drop_eq_map_getD_append (l : List Byte) (i k : Nat) (h : i + k ≤ l.length) :
    l.drop i = (List.range' i k).map (l.getD · 0) ++ l.drop (i + k) := by
  induction k generalizing i with
  | zero => rfl
  | succ k ih =>
    have hi : i < l.length := by omega
    rw [List.range'_succ, List.map_cons, List.cons_append, List.drop_eq_getElem_cons hi, List.getD_eq_getElem _ _ hi,
      ih (i + 1) (by omega), Nat.add_right_comm, Nat.add_assoc]

/-- A body with the marks, the length and the equal length bytes of R72 is the layout of the frame read from it. -/
theorem body_eq_layout {body : List Byte} {n : Nat} (hn : (body.getD 1 0).toNat = n) (h0 : body.getD 0 0 = 0x68)
    (h3 : body.getD 3 0 = 0x68) (hlength : body.length = 14 + n) (hend : body.getD (13 + n) 0 = 0x16)
    (h2 : body.getD 2 0 = body.getD 1 0) :
    body = [0x68, BitVec.ofNat 8 n, BitVec.ofNat 8 n, 0x68]
      ++ (headerBytes (le16 (body.getD 4 0) (body.getD 5 0)) (le16 (body.getD 6 0) (body.getD 7 0)) (body.getD 8 0)
        (body.getD 9 0) (body.getD 10 0) ++ (body.drop 11).take n)
      ++ trailerBytes (le16 (body.getD (11 + n) 0) (body.getD (12 + n) 0)) := by
  have hlen : body.getD 1 0 = BitVec.ofNat 8 n := by rw [← hn, BitVec.ofNat_toNat, BitVec.setWidth_eq]
  have hmarks : body = [0x68, BitVec.ofNat 8 n, BitVec.ofNat 8 n, 0x68] ++ body.drop 4 := by
    have h : body = [body.getD 0 0, body.getD 1 0, body.getD 2 0, body.getD 3 0] ++ body.drop 4 :=
      drop_eq_map_getD_append body 0 4 (by omega)
    rwa [h0, h2, h3, hlen] at h
  have hheader : body.drop 4 =
      [body.getD 4 0, body.getD 5 0, body.getD 6 0, body.getD 7 0, body.getD 8 0, body.getD 9 0, body.getD 10 0]
        ++ body.drop 11 := drop_eq_map_getD_append body 4 7 (by omega)
  have htrailer : body.drop (11 + n) = [body.getD (11 + n) 0, body.getD (12 + n) 0, 0x16] := by
    have h : body.drop (11 + n) =
        [body.getD (11 + n) 0, body.getD (11 + n + 1) 0, body.getD (11 + n + 2) 0] ++ body.drop (11 + n + 3) :=
      drop_eq_map_getD_append body (11 + n) 3 (by omega)
    have hnil : body.drop (11 + n + 3) = [] := List.drop_of_length_le (by omega)
    have h12 : 11 + n + 1 = 12 + n := by omega
    have h13 : 11 + n + 2 = 13 + n := by omega
    rwa [hnil, h12, h13, hend] at h
  have htail : body.drop 11 = (body.drop 11).take n ++ body.drop (11 + n) := by
    rw [← List.drop_drop, List.take_append_drop]
  rw [htrailer] at htail
  conv_lhs => rw [hmarks, hheader, htail]
  simp [headerBytes, trailerBytes]

/-- The body of a buffer with an `Ok` verdict is the layout of its frame, and the trailer is the sum (R52, R72). -/
theorem frameBody_of_decodeFrame_ok {buf : List Byte} {f : Frame} (h : decodeFrame buf = .ok f) :
    frameBody buf = bodyBytes f ∧ f.payload.length ≤ 255 ∧
      f.crc = checksum (headerBytes f.src f.dst f.ctl f.pkt f.cmd ++ f.payload) := by
  obtain ⟨body, n, hbody, hn, h0, h3, hlength, hend, h2, hsum, rfl⟩ := decodeFrame_ok h
  have hpayload : ((body.drop 11).take n).length = n := by
    rw [List.length_take, List.length_drop]
    omega
  have hlayout := body_eq_layout hn h0 h3 hlength hend h2
  refine ⟨by rw [hbody, bodyBytes, hpayload]; exact hlayout, ?_, ?_⟩
  · exact (hpayload.trans hn.symm).trans_le (Nat.le_of_lt_succ (body.getD 1 0).isLt)
  · refine hsum.symm.trans (congrArg checksum ?_)
    conv_lhs => rw [hlayout, List.append_assoc, List.drop_left' (by rfl), List.take_left' (by simp [hpayload])]

end Sys2Proof
end

section
/-! SUPPORT. The parser's way through a good buffer (40_frame_codec R76 to R88), part by part; with it O9. -/

namespace Sys2Proof.Machine

/-! ### Sequences of bytes -/

theorem parseBytes_append (r : Receiver) (xs ys : List Byte) :
    parseBytes r (xs ++ ys) = parseBytes (parseBytes r xs) ys := List.foldl_append

@[simp] theorem parseBytes_cons (r : Receiver) (b : Byte) (bs : List Byte) :
    parseBytes r (b :: bs) = parseBytes (parseByte r b) bs := rfl

@[simp] theorem parseBytes_nil (r : Receiver) : parseBytes r [] = r := rfl

/-- A 16-bit field taken low byte first holds the value sent (R82, R85). -/
@[simp] theorem setHi_setLo (v w : Half) : setHi (setLo v (lo8 w)) (hi8 w) = w := by simp [setHi, setLo]

/-! ### The start of a buffer -/

/-- The parser after the start marker, with or without the wake bytes before it (R76 to R78). -/
def afterStart (r : Receiver) : Receiver := { r with sum := 0, lenmis := false, state := .l1 }

theorem parseByte_start {r : Receiver} (h : r.state = .idle) : parseByte r 0x68 = afterStart r := by
  simp [parseByte, h, firstState, afterStart]

theorem parseBytes_wake_start {r : Receiver} (h : r.state = .idle) :
    parseBytes r [0xAA, 0xAA, 0x68] = afterStart r := by
  simp [parseByte, h, firstState, expect, afterStart]

/-- A body that begins with the start marker comes with or without the wake bytes (R72, R73). -/
theorem buffer_of_frameBody {buf rest : List Byte} (h : frameBody buf = 0x68 :: rest) :
    buf = 0x68 :: rest ∨ buf = [0xAA, 0xAA, 0x68] ++ rest := by
  unfold frameBody at h
  split at h
  · rename_i hwake
    match buf, hwake, h with
    | [], hwake, _ | [_], hwake, _ => simp [hasWake] at hwake
    | b0 :: b1 :: bs, hwake, h =>
      obtain ⟨rfl, rfl⟩ : b0 = 0xAA ∧ b1 = 0xAA := by simpa [hasWake] using hwake
      exact .inr (congrArg (0xAA :: 0xAA :: ·) h)
  · exact .inl h

/-- The wake bytes leave no trace: only the body matters to an idle parser (R73). -/
theorem parseBytes_of_frameBody {r : Receiver} {buf rest : List Byte} (hidle : r.state = .idle)
    (h : frameBody buf = 0x68 :: rest) : parseBytes r buf = parseBytes (afterStart r) rest := by
  rcases buffer_of_frameBody h with rfl | rfl
  · rw [parseBytes_cons, parseByte_start hidle]
  · rw [parseBytes_append, parseBytes_wake_start hidle]

/-! ### Header, payload and trailer -/

/-- A length byte holds the length of any payload a frame can have (30_encoding R53). -/
theorem lengthByte_toNat {payload : List Byte} (h : payload.length ≤ 255) :
    (BitVec.ofNat 8 payload.length).toNat = payload.length := by
  rw [BitVec.toNat_ofNat]
  omega

/-- The parser after the header of `f` (R79 to R83): a frame without payload goes on with its trailer. -/
def afterHeader (r : Receiver) (f : Frame) : Receiver :=
  let len : Byte := BitVec.ofNat 8 f.payload.length
  { r with
    state := if len = 0 then .crc0 else .pay
    l1 := len, l2 := len, lenmis := false
    sum := checksum (headerBytes f.src f.dst f.ctl f.pkt f.cmd)
    cnt := len
    src := f.src, dst := f.dst, ctl := f.ctl, pkt := f.pkt, cmd := f.cmd }

theorem parseBytes_header (r : Receiver) (f : Frame) :
    parseBytes (afterStart r) ([BitVec.ofNat 8 f.payload.length, BitVec.ofNat 8 f.payload.length, 0x68]
      ++ headerBytes f.src f.dst f.ctl f.pkt f.cmd) = afterHeader r f := by
  simp [afterStart, parseByte, expect, headerBytes, afterHeader, checksum]

/-- The payload goes to its place in the buffer and into the sum, and the trailer is next (R84). -/
theorem parseBytes_payload (bs : List Byte) {r : Receiver} (hstate : r.state = if r.cnt = 0 then .crc0 else .pay)
    (hcnt : r.cnt.toNat = bs.length) (hl1 : bs.length ≤ r.l1.toNat) :
    parseBytes r bs = { r with
      pay := Memory.writeBytes r.pay (r.l1.toNat - bs.length) bs
      sum := bs.foldl addByte r.sum
      cnt := 0
      state := .crc0 } := by
  induction bs generalizing r with
  | nil =>
    have hzero : r.cnt = 0 := BitVec.eq_of_toNat_eq hcnt
    rw [if_pos hzero] at hstate
    rw [parseBytes_nil, List.foldl_nil, Memory.writeBytes, ← hzero, ← hstate]
  | cons b bs ih =>
    simp only [List.length_cons] at hcnt hl1
    have hpay : r.state = .pay := by
      rw [hstate, if_neg]
      intro hzero
      simp [hzero] at hcnt
    have hbyte : parseByte r b = parsePayload r b := by rw [parseByte, hpay]
    have hcnt' : (r.cnt - 1).toNat = bs.length := by bv_omega
    have hplace : (r.l1 - r.cnt).toNat = r.l1.toNat - (bs.length + 1) := by bv_omega
    have hnext : r.l1.toNat - bs.length = r.l1.toNat - (bs.length + 1) + 1 := by omega
    rw [parseBytes_cons, hbyte, ih (r := parsePayload r b) rfl hcnt' (Nat.le_of_succ_le hl1)]
    simp [parsePayload, hplace, hnext, Memory.writeBytes]

/-- The trailer fills `rx_crc` and its end marker finishes the frame (R85, R86). -/
theorem parseBytes_trailer {r : Receiver} (h : r.state = .crc0) (crc : Half) :
    parseBytes r (trailerBytes crc) = { r with crc := crc, state := .done } := by
  simp [trailerBytes, parseByte, h, expect]

/-! ### The whole buffer -/

/-- The parser after a buffer that holds the frame `f` (R88). -/
def afterFrame (r : Receiver) (f : Frame) : Receiver :=
  { afterHeader r f with
    pay := Memory.writeBytes r.pay 0 f.payload
    sum := checksum (headerBytes f.src f.dst f.ctl f.pkt f.cmd ++ f.payload)
    cnt := 0
    crc := f.crc
    state := .done }

theorem parseBytes_bodyBytes {r : Receiver} {buf : List Byte} {f : Frame} (hidle : r.state = .idle)
    (hlength : f.payload.length ≤ 255) (hbody : frameBody buf = bodyBytes f) :
    parseBytes r buf = afterFrame r f := by
  have hlen := lengthByte_toNat hlength
  have hsplit : bodyBytes f = 0x68 :: (([BitVec.ofNat 8 f.payload.length, BitVec.ofNat 8 f.payload.length, 0x68]
      ++ headerBytes f.src f.dst f.ctl f.pkt f.cmd) ++ f.payload ++ trailerBytes f.crc) := by
    simp [bodyBytes]
  rw [parseBytes_of_frameBody hidle (hbody.trans hsplit), parseBytes_append, parseBytes_append, parseBytes_header,
    parseBytes_payload f.payload (r := afterHeader r f) rfl hlen hlen.ge, parseBytes_trailer rfl]
  simp [afterFrame, afterHeader, hlen, checksum_append]

theorem parserVerdict_afterFrame {r : Receiver} {f : Frame} (hwf : Memory.wf r.pay = true)
    (hlength : f.payload.length ≤ 255)
    (hcrc : f.crc = checksum (headerBytes f.src f.dst f.ctl f.pkt f.cmd ++ f.payload)) :
    parserVerdict (afterFrame r f) = .ok f := by
  have hlen := lengthByte_toNat hlength
  simp [parserVerdict, receivedFrame, afterFrame, afterHeader, ← hcrc, hlen, Memory.readBytes_writeBytes hwf]

/-- Over a buffer with an `Ok` verdict of `Decode` an idle parser comes to the same verdict, its buffer not closed
(R90). -/
theorem parseBytes_of_decodeFrame_ok {r : Receiver} {buf : List Byte} {f : Frame} (hidle : r.state = .idle)
    (hwf : Memory.wf r.pay = true) (h : decodeFrame buf = .ok f) :
    (parseBytes r buf).state = .done ∧ parserVerdict (parseBytes r buf) = .ok f := by
  obtain ⟨hbody, hlength, hcrc⟩ := frameBody_of_decodeFrame_ok h
  rw [parseBytes_bodyBytes hidle hlength hbody]
  exact ⟨rfl, parserVerdict_afterFrame hwf hlength hcrc⟩

/-! ### Received bytes and the quiet gap -/

/-- A received byte reaches the parser and the recorded stream, nothing else (00_scope R5, R76). -/
theorem step_of_rxByte {s : State} {b : Byte} {rest : List Event} (h : s.env.inputs = .rxByte b :: rest) :
    step s = .next (doRxByte b (setInputs rest s)) := by
  rw [step_of_event h]
  rfl

/-- The state after the bytes `buf` were received, the events `rest` still to come. -/
def afterReceiving (buf : List Byte) (rest : List Event) (s : State) : State :=
  { s with
    rx := parseBytes s.rx buf
    env := { s.env with inputs := rest, rxStream := s.env.rxStream ++ buf } }

/-- A run whose first step goes on is the run from the next state. -/
theorem run_succ_of_step {M : Host.Core} {s t : M.State} (h : M.step s = .next t) (k : Nat) :
    M.run (k + 1) s = M.run k t := by
  rw [Host.Core.run, h]

/-- Received bytes, with nothing between them, are taken one a step (00_scope R5, R6). -/
theorem run_receiving (buf : List Byte) {rest : List Event} {s : State}
    (h : s.env.inputs = buf.map .rxByte ++ rest) :
    core.run buf.length s = .next (afterReceiving buf rest s) := by
  induction buf generalizing s with
  | nil =>
    have hs : afterReceiving [] rest s = s := by
      rw [List.map_nil, List.nil_append] at h
      simp [afterReceiving, ← h]
    rw [hs]
    rfl
  | cons b bs ih =>
    have hrun := ih (s := doRxByte b (setInputs (bs.map .rxByte ++ rest) s)) rfl
    refine (run_succ_of_step (M := core) (step_of_rxByte h) bs.length).trans (hrun.trans (congrArg _ ?_))
    simp [afterReceiving, doRxByte, setInputs]

/-- At the quiet gap after a good frame with a row, the step runs the row with the parser closed (R88, R120). -/
theorem step_of_rxQuiet_row {s : State} {rest : List Event} {f : Frame} {i : Instr}
    (h : s.env.inputs = .rxQuiet :: rest) (hopen : s.rx.state ≠ .idle) (hverdict : parserVerdict s.rx = .ok f)
    (hrow : receivedRow f = some i) : step s = exec i (closeBuffer (setInputs rest s)) := by
  have hfetch : fetchRxQuiet (setInputs rest s) = .run i (closeBuffer (setInputs rest s)) := by
    simp [fetchRxQuiet, fetchFrame, hopen, hverdict, hrow]
  rw [step_of_event h, fetchEvent, hfetch]
  rfl

/-- A buffer decodes at the receive side to the row of its good frame (R59, R72). -/
theorem decode_receive_instr {buf : List Byte} {i : Instr} (h : decode .receive buf = .instr i) :
    ∃ f, decodeFrame buf = .ok f ∧ receivedRow f = some i := by
  rw [decode, decodeReceived] at h
  split at h
  · exact absurd h nofun
  · rename_i f hok
    split at h
    · rename_i j hrow
      obtain rfl := Decoded.instr.inj h
      exact ⟨f, hok, hrow⟩
    · exact absurd h nofun

/-- Settles O9: `run_receiving` takes the bytes, the parser then holds the decoder's frame, and the quiet gap runs its
row. -/
theorem receivedBufferRunsItsRow : Obligations.ReceivedBufferRunsItsRow := by
  unfold Obligations.ReceivedBufferRunsItsRow
  refine ⟨fun s b rest h => step_of_rxByte h, fun s buf rest i h hidle hwf _ hdecode => ?_⟩
  obtain ⟨f, hok, hrow⟩ := decode_receive_instr hdecode
  obtain ⟨hdone, hverdict⟩ := parseBytes_of_decodeFrame_ok hidle hwf hok
  have hopen : (parseBytes s.rx buf).state ≠ .idle := by
    rw [hdone]
    nofun
  exact ⟨_, run_receiving buf h,
    step_of_rxQuiet_row (s := afterReceiving buf (.rxQuiet :: rest) s) rfl hopen hverdict hrow⟩

end Sys2Proof.Machine
end

section
/-! SUPPORT. What any one step can do to the device table, said once as `TableMove`; with it O54, O59 and O30. -/

namespace Sys2Proof.Machine

/-! ### Reset and the host operations -/

/-- Settles O30: RESET and the reset input run `resetState` (42_multiplexer R117, 70_reset_and_hazards R149). -/
theorem resetRestoresEveryElement : Obligations.ResetRestoresEveryElement := by
  unfold Obligations.ResetRestoresEveryElement
  refine ⟨fun s => rfl, fun s rest h => ?_⟩
  rw [step_of_event h]
  rfl

/-- A CMD word is one of the seven listed operations or a reserved one (30_encoding R62). -/
theorem decodeCommand_cases (w : Word) :
    decodeCommand w = .nop ∨ decodeCommand w = .discover ∨ decodeCommand w = .enumerate ∨ decodeCommand w = .poll ∨
      decodeCommand w = .continuePoll ∨ decodeCommand w = .abort ∨ decodeCommand w ∈ reservedRows ∨
      decodeCommand w = .reset := by
  unfold decodeCommand
  split <;> simp [reservedRows]

/-- The nine reserved rows have one meaning (R118). -/
theorem exec_reservedRow {i : Instr} (h : i ∈ reservedRows) (s : State) : exec i s = .next (reservedOp s) := by
  simp only [reservedRows, List.mem_cons, List.not_mem_nil, or_false] at h
  rcases h with rfl | rfl | rfl | rfl | rfl | rfl | rfl | rfl | rfl <;> rfl

/-! ### The moves of the device table -/

/-- What the rules of the device table read: the parameters, `dev_count` and the entries (10_state R22). -/
def tableFields (s : State) : Params × BitVec 5 × Vector Device 16 := (s.params, s.tab.devCount, s.tab.dev)

theorem tableFields_eq_iff {s : State} {p : Params} {n : BitVec 5} {dev : Vector Device 16} :
    tableFields s = (p, n, dev) ↔ s.params = p ∧ s.tab.devCount = n ∧ s.tab.dev = dev := by
  simp [tableFields]

/-- What a step from `s` to `t` can do to the device table, `mayClear` being what lets it empty the table. -/
inductive TableMove (mayClear : Prop) (s t : State) : Prop where
  /-- the table stands as it was -/
  | keep (fields : tableFields t = tableFields s)
  /-- a reset (R149) or DISCOVER (R112) empties the table -/
  | clear (cause : mayClear) (fields : tableFields t = (s.params, 0, Vector.replicate 16 Device.zero))
  /-- the gather writes entry `i`, its address as it was (R126) -/
  | update (gather : s.seq.muxState = .awaitGather) (i : Nat) (d : Device) (known : i < s.tab.devCount.toNat)
      (addr : d.addr = deviceAddr s i)
      (fields : tableFields t = (s.params, s.tab.devCount, s.tab.dev.setIfInBounds i d))
  /-- the gather appends an entry with a new nonzero address (R125, R126) -/
  | append (gather : s.seq.muxState = .awaitGather) (d : Device) (nonzero : d.addr ≠ 0)
      (fresh : ∀ i, i < s.tab.devCount.toNat → deviceAddr s i ≠ d.addr)
      (room : s.tab.devCount.toNat < s.params.maxDevices)
      (fields : tableFields t =
        (s.params, s.tab.devCount + 1, s.tab.dev.setIfInBounds s.tab.devCount.toNat d))

/-- A move reads only the table and whether the gather is on, of the state it starts in. -/
theorem TableMove.congr {c : Prop} {s s' t : State} (h : TableMove c s t) (mux : s.seq.muxState = s'.seq.muxState)
    (params : s.params = s'.params) (tab : s.tab = s'.tab) : TableMove c s' t := by
  have haddr : deviceAddr s = deviceAddr s' := by
    funext i
    rw [deviceAddr, deviceAt, tab, deviceAddr, deviceAt]
  have hfields : tableFields s = tableFields s' := by rw [tableFields, params, tab, tableFields]
  cases h with
  | keep fields => exact .keep (fields.trans hfields)
  | clear cause fields => exact .clear cause (params ▸ fields)
  | update gather i d known addr fields =>
    exact .update (mux ▸ gather) i d (tab ▸ known) (haddr ▸ addr) (params ▸ tab ▸ fields)
  | append gather d nonzero fresh room fields =>
    exact .append (mux ▸ gather) d nonzero (haddr ▸ tab ▸ fresh) (params ▸ tab ▸ room) (params ▸ tab ▸ fields)

/-! ### Operations that keep the table -/

theorem tableFields_blockStep (s : State) : tableFields (blockStep s) = tableFields s := by
  rcases blockStep_cases s with ⟨_, h⟩ | ⟨_, _, h⟩ | ⟨_, _, _, h⟩ | ⟨_, _, _, h⟩ <;> rw [h]
  case inr.inr.inr => simp [tableFields]
  all_goals rfl

theorem tableFields_whenIdle {act : State → State} (h : ∀ s, tableFields (act s) = tableFields s) (s : State) :
    tableFields (whenIdle act s) = tableFields s := by
  rcases whenIdle_cases act s with ⟨_, hs⟩ | ⟨_, hs⟩ <;> rw [hs]
  · exact h s
  · rfl

theorem tableFields_enumerateIdle (s : State) : tableFields (enumerateIdle s) = tableFields s := by
  rcases enumerateIdle_cases s with ⟨_, h⟩ | ⟨_, h⟩ <;> rw [h] <;> rfl

theorem tableFields_pollSlot (slot : Option (Nat × Nat)) (s : State) :
    tableFields (pollSlot slot s) = tableFields s := by
  rcases pollSlot_cases slot s with ⟨_, h⟩ | ⟨d, k, _, h⟩ <;> rw [h] <;> rfl

theorem tableFields_continueHeld (s : State) : tableFields (continueHeld s) = tableFields s :=
  tableFields_pollSlot _ { s with resp := { s.resp with valid := false } }

theorem tableFields_reservedOp (s : State) : tableFields (reservedOp s) = tableFields s := by
  rcases reservedOp_cases s with ⟨_, h⟩ | ⟨_, h⟩ <;> rw [h] <;> rfl

theorem tableFields_of_execContinuePoll {s t : State} (h : execContinuePoll s = .next t) :
    tableFields t = tableFields s := by
  rcases execContinuePoll_cases s with ⟨_, hs⟩ | ⟨_, hs⟩ | ⟨_, _, hs⟩ <;>
    obtain rfl := Host.Outcome.next.inj (hs.symm.trans h)
  case inr.inl => exact tableFields_continueHeld s
  all_goals rfl

theorem tableFields_of_execAbort {s t : State} (h : execAbort s = .next t) : tableFields t = tableFields s := by
  rcases execAbort_cases s with ⟨_, hs⟩ | ⟨_, hs⟩ | ⟨_, _, hs⟩ <;>
    obtain rfl := Host.Outcome.next.inj (hs.symm.trans h) <;> rfl

/-- The device window is read-only for the host (20_memory R31, R41). -/
theorem tableFields_writeReg (w : Word) (s : State) (r : HostReg) :
    tableFields (writeReg w s r) = tableFields s := by
  cases r with
  | arg | crt =>
    rw [writeReg]
    split <;> rfl
  | _ => rfl

theorem tableFields_concludeOp (c : Code) (s : State) : tableFields (concludeOp c s) = tableFields s := by
  rcases concludeOp_cases c s with ⟨_, h⟩ | ⟨_, h⟩ <;> rw [h] <;> rfl

theorem tableFields_uniResult (res : ReasmResult) (s : State) : tableFields (uniResult res s) = tableFields s := by
  cases res with
  | pending => rfl
  | complete r => exact tableFields_concludeOp .ok (storeResponse r s)
  | inconsistent => exact tableFields_concludeOp _ (storeFailure .fragmentInconsistent s)
  | overflow => exact tableFields_concludeOp _ (storeFailure .reasmOverflow s)

theorem tableFields_rxTimeout (s : State) : tableFields (doRxTimeout s) = tableFields s := by
  rcases doRxTimeout_cases s with ⟨_, _, h⟩ | ⟨_, _, _, h⟩ | ⟨_, _, _, h⟩ | ⟨_, h⟩ <;> rw [h]
  case inl => exact tableFields_concludeOp _ (storeFailure .noResponse s)
  all_goals rfl

theorem tableFields_linkError (s : State) : tableFields (doLinkError s) = tableFields s := by
  rcases doLinkError_cases s with ⟨_, h⟩ | ⟨_, h⟩ <;> rw [h] <;> rfl

/-! ### Operations that write the table -/

/-- A host operation empties the table when it is RESET, or DISCOVER in IDLE (R112, R117). -/
theorem tableMove_command {w : Word} {s t : State} (h : exec (decodeCommand w) s = .next t) :
    TableMove (decodeCommand w = .reset ∨ decodeCommand w = .discover ∧ busy s = false) s t := by
  rcases decodeCommand_cases w with hi | hi | hi | hi | hi | hi | hi | hi
  case inr.inr.inr.inr.inr.inr.inl =>
    rw [exec_reservedRow hi] at h
    obtain rfl := Host.Outcome.next.inj h
    exact .keep (tableFields_reservedOp s)
  all_goals rw [hi] at h ⊢
  case inr.inr.inr.inr.inl => exact .keep (tableFields_of_execContinuePoll h)
  case inr.inr.inr.inr.inr.inl => exact .keep (tableFields_of_execAbort h)
  all_goals obtain rfl := Host.Outcome.next.inj h
  · exact .keep rfl
  · rcases whenIdle_cases discoverIdle s with ⟨hm, hs⟩ | ⟨_, hs⟩ <;> rw [hs]
    · exact .clear (.inr ⟨rfl, by simp [busy, hm]⟩) rfl
    · exact .keep rfl
  · exact .keep (tableFields_whenIdle tableFields_enumerateIdle s)
  · exact .keep (tableFields_whenIdle (act := pollIdle) (fun _ => rfl) s)
  · exact .clear (.inl rfl) rfl

theorem tableMove_gatherInsert {c : Prop} {a : Half} (ha : a ≠ 0) (serial : Word) (tag : Vector Byte 8) {s : State}
    (gather : s.seq.muxState = .awaitGather) : TableMove c s (gatherInsert a serial tag s) := by
  rcases gatherInsert_cases a serial tag s with ⟨i, hfound, h⟩ | ⟨hnone, hroom, h⟩ | ⟨_, _, h⟩ <;> rw [h]
  · obtain ⟨known, _⟩ := findDevice_some hfound
    exact .update gather i { deviceAt s i with serial := serial, tag := tag } known rfl rfl
  · exact .append gather ⟨a, serial, tag⟩ ha (findDevice_none hnone) hroom rfl
  · exact .keep rfl

theorem tableMove_gatherResult {c : Prop} (res : ReasmResult) {s : State} (gather : s.seq.muxState = .awaitGather) :
    TableMove c s (gatherResult res s) := by
  cases res with
  | complete r =>
    rw [gatherResult, gatherResponse]
    split
    · rename_i hanswer
      obtain ⟨_, hsrc, _⟩ := hanswer
      exact tableMove_gatherInsert hsrc _ _ gather
    · exact .keep rfl
  | pending | inconsistent | overflow => exact .keep rfl

theorem tableMove_deliver {c : Prop} (f : Frame) (s : State) : TableMove c s (deliver f s) := by
  rcases deliver_cases f s with ⟨_, h⟩ | ⟨gather, h⟩ | ⟨_, _, h⟩ <;> rw [h]
  · exact .keep (tableFields_uniResult _ (reasmState f s))
  · exact (tableMove_gatherResult _ (s := reasmState f s) gather).congr rfl rfl rfl
  · exact .keep rfl

/-! ### Every step -/

/-- What lets a step empty the table: a reset or an accepted DISCOVER is the event it takes. -/
def StepMayClear (s : State) : Prop := stepResets s = true ∨ stepDiscovers s = true

theorem tableMove_of_eventCases {s t : State} {e : Event} {rest : List Event} (hinputs : s.env.inputs = e :: rest)
    (h : EventCases (setInputs rest s) t e) : TableMove (StepMayClear s) (setInputs rest s) t := by
  cases e with
  | hostRead off => obtain rfl := h; exact .keep rfl
  | hostWrite off w =>
    rcases h with ⟨hcmd, hexec⟩ | ⟨_, rfl⟩
    · have hcmd : regAt s.params off = .cmd := hcmd
      have hcause : decodeCommand w = .reset ∨ decodeCommand w = .discover ∧ busy s = false ↔ StepMayClear s := by
        simp [StepMayClear, stepResets, stepDiscovers, hinputs, hcmd]
      rw [← hcause]
      exact tableMove_command hexec
    · exact .keep (tableFields_writeReg w _ _)
  | reset => obtain rfl := h; exact .clear (.inl (by rw [stepResets, hinputs])) rfl
  | blockStep => obtain rfl := h; exact .keep (tableFields_blockStep _)
  | rxByte b => obtain rfl := h; exact .keep rfl
  | rxQuiet =>
    rcases h with ⟨_, rfl⟩ | ⟨err, _, _, rfl⟩ | ⟨f, _, _, rfl⟩
    · exact .keep rfl
    · cases err <;> exact .keep rfl
    · exact (tableMove_deliver f (closeBuffer _)).congr rfl rfl rfl
  | rxTimeout => obtain rfl := h; exact .keep (tableFields_rxTimeout _)
  | settleElapsed =>
    rcases h with ⟨_, rfl⟩ | ⟨_, rfl⟩
    · exact .keep rfl
    · exact .keep (tableFields_pollSlot _ _)
  | linkError => obtain rfl := h; exact .keep (tableFields_linkError _)

/-- Every step makes one of the four moves, and only a reset or an accepted DISCOVER empties the table. -/
theorem step_tableMove {s t : State} (h : step s = .next t) : TableMove (StepMayClear s) s t := by
  rcases step_cases h with ⟨_, rfl⟩ | ⟨e, rest, hinputs, hevent⟩
  · exact .keep (tableFields_blockStep s)
  · exact (tableMove_of_eventCases hinputs hevent).congr rfl rfl rfl

/-- Settles O59: outside the gather a `TableMove` that is no `clear` keeps the table. -/
theorem onlyDiscoveryWritesTheDeviceTable : Obligations.OnlyDiscoveryWritesTheDeviceTable := by
  unfold Obligations.OnlyDiscoveryWritesTheDeviceTable
  intro s t hmux hreset hdiscover hstep
  cases step_tableMove hstep with
  | keep fields =>
    obtain ⟨_, count, dev⟩ := tableFields_eq_iff.mp fields
    exact ⟨count, dev⟩
  | clear cause _ => simp [StepMayClear, hreset, hdiscover] at cause
  | update gather _ _ _ _ _ | append gather _ _ _ _ _ => exact absurd gather hmux

/-! ### The entries after a move -/

theorem maxDevices_le (p : Params) : p.maxDevices ≤ 16 := by
  have := p.deviceExtra.isLt
  unfold Params.maxDevices
  omega

/-- The entry written is read back, when the table has storage for it. -/
theorem deviceAt_set_same {s t : State} {i : Nat} {d : Device} (h : t.tab.dev = s.tab.dev.setIfInBounds i d)
    (hi : i < 16) : deviceAt t i = d := by
  simp [deviceAt, h, hi]

/-- Every other entry is left alone. -/
theorem deviceAt_set_other {s t : State} {i j : Nat} {d : Device} (h : t.tab.dev = s.tab.dev.setIfInBounds i d)
    (hij : i ≠ j) : deviceAt t j = deviceAt s j := by
  simp [deviceAt, h, hij]

theorem deviceAt_replicate_zero {t : State} (h : t.tab.dev = Vector.replicate 16 Device.zero) (i : Nat) :
    deviceAt t i = Device.zero := by
  rw [deviceAt, h, Vector.getElem?_replicate]
  split <;> rfl

/-! ### The device table invariant -/

/-- An empty table is sound (R29, R112). -/
theorem DeviceTableSound.of_clear {t : State} (count : t.tab.devCount = 0)
    (dev : t.tab.dev = Vector.replicate 16 Device.zero) : DeviceTableSound t := by
  have hcount : t.tab.devCount.toNat = 0 := by rw [count]; rfl
  refine ⟨by omega, fun i hi => ?_, fun i j hij hj => ?_, fun i _ => deviceAt_replicate_zero dev i⟩ <;> omega

/-- A table with the same count, the same addresses and the same entries past the count is as sound (R126). -/
theorem DeviceTableSound.of_addr_eq {s t : State} (h : DeviceTableSound s) (params : t.params = s.params)
    (count : t.tab.devCount = s.tab.devCount) (addr : ∀ j, deviceAddr t j = deviceAddr s j)
    (past : ∀ j, s.tab.devCount.toNat ≤ j → deviceAt t j = deviceAt s j) : DeviceTableSound t := by
  refine ⟨?_, fun i hi => ?_, fun i j hij hj => ?_, fun i hi => ?_⟩
  · rw [params, count]
    exact h.count
  · rw [addr]
    exact h.nonzero i (count ▸ hi)
  · rw [addr, addr]
    exact h.keyed i j hij (count ▸ hj)
  · have hi : s.tab.devCount.toNat ≤ i := count ▸ hi
    rw [past i hi]
    exact h.empty i hi

/-- A table with an entry of a new nonzero address appended below `P_MAX_DEVICES` is sound (R126). -/
theorem DeviceTableSound.of_append {s t : State} {d : Device} (h : DeviceTableSound s) (nonzero : d.addr ≠ 0)
    (fresh : ∀ i, i < s.tab.devCount.toNat → deviceAddr s i ≠ d.addr)
    (room : s.tab.devCount.toNat < s.params.maxDevices) (params : t.params = s.params)
    (count : t.tab.devCount = s.tab.devCount + 1)
    (dev : t.tab.dev = s.tab.dev.setIfInBounds s.tab.devCount.toNat d) : DeviceTableSound t := by
  have hmax := maxDevices_le s.params
  have hcount : t.tab.devCount.toNat = s.tab.devCount.toNat + 1 := by
    rw [count]
    bv_omega
  have hold : ∀ j, j ≠ s.tab.devCount.toNat → deviceAt t j = deviceAt s j :=
    fun j hj => deviceAt_set_other dev hj.symm
  have hnew : deviceAddr t s.tab.devCount.toNat = d.addr := by
    rw [deviceAddr, deviceAt_set_same dev (by omega)]
  have haddr : ∀ j, j < s.tab.devCount.toNat → deviceAddr t j = deviceAddr s j :=
    fun j hj => congrArg Device.addr (hold j hj.ne)
  refine ⟨?_, fun i hi => ?_, fun i j hij hj => ?_, fun i hi => ?_⟩
  · rw [hcount, params]
    exact room
  · rcases Nat.lt_or_eq_of_le (show i ≤ s.tab.devCount.toNat by omega) with hlt | rfl
    · rw [haddr i hlt]
      exact h.nonzero i hlt
    · rw [hnew]
      exact nonzero
  · rcases Nat.lt_or_eq_of_le (show j ≤ s.tab.devCount.toNat by omega) with hlt | rfl
    · rw [haddr i (hij.trans hlt), haddr j hlt]
      exact h.keyed i j hij hlt
    · rw [haddr i hij, hnew]
      exact fresh i hij
  · rw [hold i (by omega)]
    exact h.empty i (by omega)

/-- Every move keeps a sound table sound. -/
theorem DeviceTableSound.of_move {c : Prop} {s t : State} (h : DeviceTableSound s) (hmove : TableMove c s t) :
    DeviceTableSound t := by
  cases hmove with
  | keep fields =>
    obtain ⟨params, count, dev⟩ := tableFields_eq_iff.mp fields
    have hat : ∀ j, deviceAt t j = deviceAt s j := fun j => by rw [deviceAt, dev, deviceAt]
    exact h.of_addr_eq params count (fun j => congrArg Device.addr (hat j)) fun j _ => hat j
  | clear _ fields =>
    obtain ⟨_, count, dev⟩ := tableFields_eq_iff.mp fields
    exact .of_clear count dev
  | update _ i d known addr fields =>
    obtain ⟨params, count, dev⟩ := tableFields_eq_iff.mp fields
    have hi : i < 16 := (known.trans_le h.count).trans_le (maxDevices_le s.params)
    refine h.of_addr_eq params count (fun j => ?_) fun j hj => deviceAt_set_other dev (known.trans_le hj).ne
    by_cases hij : i = j
    · subst hij
      rw [deviceAddr, deviceAt_set_same dev hi, addr]
    · exact congrArg Device.addr (deviceAt_set_other dev hij)
  | append _ d nonzero fresh room fields =>
    obtain ⟨params, count, dev⟩ := tableFields_eq_iff.mp fields
    exact h.of_append nonzero fresh room params count dev

/-- Settles O54: every step makes a `TableMove`, and each move keeps the invariant. -/
theorem everyStepKeepsDeviceTableSound : Obligations.EveryStepKeepsDeviceTableSound := by
  unfold Obligations.EveryStepKeepsDeviceTableSound
  intro s t hsound hstep
  exact hsound.of_move (step_tableMove hstep)

end Sys2Proof.Machine
end

section
/-! SUPPORT. What keeps the byte buffers canonical and within their sizes (10_state R18, R20, R21, R24), part by part: the
parser, the reassembler, the transmitter and the response registers; with it O52 and O51. -/

namespace Sys2Proof.Machine

/-! ### One buffer -/

theorem bufferSound_nil (capacity : Nat) : BufferSound [] capacity := ⟨rfl, rfl⟩

/-- A write of a sequence that ends below the capacity keeps a buffer sound. -/
theorem BufferSound.writeBytes {m : Memory} {capacity : Nat} (h : BufferSound m capacity) {a : Nat} {bs : List Byte}
    (ha : a + bs.length ≤ capacity) : BufferSound (Memory.writeBytes m a bs) capacity := by
  obtain ⟨hwf, hwithin⟩ := h
  exact ⟨Memory.wf_writeBytes hwf a bs, Memory.within_writeBytes hwithin ha⟩

/-! ### The parser (40_frame_codec R76 to R88) -/

/-- The receive side of `BuffersSound`: the payload buffer, and the count of payload bytes still expected (R84). -/
structure ReceiverSound (r : Receiver) : Prop where
  pay : BufferSound r.pay 255
  payCount : r.state = .pay → 1 ≤ r.cnt.toNat ∧ r.cnt.toNat ≤ r.l1.toNat

/-- Outside a payload only the canonical form and the size are asked. -/
theorem ReceiverSound.of_state_ne_pay {r r' : Receiver} (h : ReceiverSound r) (pay : r'.pay = r.pay)
    (state : r'.state ≠ .pay) : ReceiverSound r' :=
  ⟨pay ▸ h.pay, fun hpay => absurd hpay state⟩

theorem firstState_ne_pay (b : Byte) : firstState b ≠ .pay := by
  unfold firstState
  split_ifs <;> nofun

theorem expect_ne_pay {next : RxState} (h : next ≠ .pay) (b want : Byte) : expect b want next ≠ .pay := by
  unfold expect
  split_ifs
  · exact h
  · nofun

/-- The parser writes its payload buffer, and enters or stays in a payload, only at the command byte and in a payload
(R83, R84). -/
theorem parseByte_cases (r : Receiver) (b : Byte) :
    (r.state = .cmd ∧ parseByte r b = { r with
      cmd := b, sum := addByte r.sum b, cnt := r.l1, state := if r.l1 = 0 then .crc0 else .pay }) ∨
    (r.state = .pay ∧ parseByte r b = parsePayload r b) ∨
    ((parseByte r b).pay = r.pay ∧ (parseByte r b).state ≠ .pay) := by
  unfold parseByte
  cases hstate : r.state with
  | cmd => exact .inl ⟨rfl, rfl⟩
  | pay => exact .inr (.inl ⟨rfl, rfl⟩)
  | idle => exact .inr (.inr ⟨rfl, firstState_ne_pay b⟩)
  | wake2 | start1 | start2 | endMark =>
    refine .inr (.inr ⟨rfl, expect_ne_pay ?_ _ _⟩)
    nofun
  | err => exact .inr (.inr ⟨rfl, fun hpay => absurd (hstate.symm.trans hpay) nofun⟩)
  | _ => exact .inr (.inr ⟨rfl, nofun⟩)

/-- The payload byte at `rx_L1 - rx_cnt` is within the buffer, and the count goes down to 0 (R84). -/
theorem receiverSound_parsePayload {r : Receiver} (h : ReceiverSound r) (hstate : r.state = .pay) (b : Byte) :
    ReceiverSound (parsePayload r b) := by
  obtain ⟨hpos, hle⟩ := h.payCount hstate
  have hplace : (r.l1 - r.cnt).toNat < 255 := by bv_omega
  refine ⟨h.pay.writeBytes (bs := [b]) hplace, fun hpay => ?_⟩
  have hmore : r.cnt - 1 ≠ 0 := fun hzero => absurd ((if_pos hzero).symm.trans hpay) nofun
  change 1 ≤ (r.cnt - 1).toNat ∧ (r.cnt - 1).toNat ≤ r.l1.toNat
  bv_omega

theorem receiverSound_parseByte {r : Receiver} (h : ReceiverSound r) (b : Byte) : ReceiverSound (parseByte r b) := by
  rcases parseByte_cases r b with ⟨_, hr⟩ | ⟨hstate, hr⟩ | ⟨hpay, hstate⟩
  · rw [hr]
    refine ⟨h.pay, fun hpay => ?_⟩
    have hsome : r.l1 ≠ 0 := fun hzero => by simp [hzero] at hpay
    change 1 ≤ r.l1.toNat ∧ r.l1.toNat ≤ r.l1.toNat
    bv_omega
  · rw [hr]
    exact receiverSound_parsePayload h hstate b
  · exact h.of_state_ne_pay hpay hstate

/-! ### The reassembler (41_reassembler R94) -/

/-- The accumulator's side of `BuffersSound`, for the capacity `P_REASM_MAX`. -/
structure AccumulatorSound (capacity : Nat) (a : Accumulator) : Prop where
  buf : BufferSound a.buf capacity
  len : a.len.toNat ≤ capacity

/-- What a reassembly step gives: a sound accumulator, and a response within the capacity. -/
structure ReassemblySound (capacity : Nat) (p : Accumulator × ReasmResult) : Prop where
  acc : AccumulatorSound capacity p.1
  response : ∀ r, p.2 = .complete r → r.payload.length ≤ capacity

theorem reassemblySound_reasmFinish {capacity : Nat} {a : Accumulator} (h : AccumulatorSound capacity a) :
    ReassemblySound capacity (reasmFinish a) := by
  rcases reasmFinish_cases a with ⟨_, ha⟩ | ⟨_, ha⟩ <;> rw [ha]
  · refine ⟨⟨h.buf, h.len⟩, fun r hr => ?_⟩
    obtain rfl := ReasmResult.complete.inj hr
    exact (Memory.readBytes_length a.buf 0 a.len.toNat).trans_le h.len
  · exact ⟨h, nofun⟩

theorem reassemblySound_reasmStep {capacity : Nat} {f : Frame} {a : Accumulator} (h : AccumulatorSound capacity a)
    (h255 : 255 ≤ capacity) (hf : f.payload.length ≤ 255) : ReassemblySound capacity (reasmStep capacity f a) := by
  rcases reasmStep_cases capacity f a with ⟨_, hs⟩ | ⟨_, _, hs⟩ | ⟨_, _, _, _, _, _, hs⟩ |
    ⟨_, _, _, _, _, hfits, hs⟩ <;> rw [hs]
  · refine reassemblySound_reasmFinish ⟨h.buf.writeBytes (by omega), ?_⟩
    exact (Nat.mod_le _ _).trans (hf.trans h255)
  · exact ⟨⟨h.buf, h.len⟩, nofun⟩
  · exact ⟨⟨h.buf, h.len⟩, nofun⟩
  · refine reassemblySound_reasmFinish ⟨h.buf.writeBytes hfits, ?_⟩
    exact (Nat.mod_le _ _).trans hfits

/-! ### The state -/

/-- What `BuffersSound` reads of a state. -/
def bufferFields (s : State) : Params × Memory × Receiver × (BitVec 13 × Memory) × (BitVec 13 × Memory) :=
  (s.params, s.tx.buf, s.rx, (s.acc.len, s.acc.buf), (s.resp.len, s.resp.buf))

theorem BuffersSound.of_fields_eq {s t : State} (h : BuffersSound s) (heq : bufferFields t = bufferFields s) :
    BuffersSound t := by
  simp only [bufferFields, Prod.mk.injEq] at heq
  obtain ⟨params, txBuf, rx, ⟨accLen, accBuf⟩, respLen, respBuf⟩ := heq
  exact ⟨txBuf ▸ h.txBuf, rx ▸ h.rxPay, params ▸ accBuf ▸ h.accBuf, params ▸ respBuf ▸ h.respBuf,
    params ▸ accLen ▸ h.accLen, params ▸ respLen ▸ h.respLen, rx ▸ h.payCount⟩

theorem BuffersSound.receiver {s : State} (h : BuffersSound s) : ReceiverSound s.rx := ⟨h.rxPay, h.payCount⟩

theorem BuffersSound.accumulator {s : State} (h : BuffersSound s) : AccumulatorSound s.params.reasmMax s.acc :=
  ⟨h.accBuf, h.accLen⟩

theorem BuffersSound.with_receiver {s : State} (h : BuffersSound s) {r : Receiver} (hr : ReceiverSound r) :
    BuffersSound { s with rx := r } :=
  { h with rxPay := hr.pay, payCount := hr.payCount }

theorem BuffersSound.with_accumulator {s : State} (h : BuffersSound s) {a : Accumulator}
    (ha : AccumulatorSound s.params.reasmMax a) : BuffersSound { s with acc := a } :=
  { h with accBuf := ha.buf, accLen := ha.len }

theorem buffersSound_resetState (s : State) : BuffersSound (resetState s) :=
  ⟨bufferSound_nil _, bufferSound_nil _, bufferSound_nil _, bufferSound_nil _, Nat.zero_le _, Nat.zero_le _, nofun⟩

/-! ### The transmitter -/

/-- A request frame fits `tx_buf` (10_state R18, 42_multiplexer R103 to R106). -/
theorem RequestFrame.length_le {frame : List Byte} (h : RequestFrame frame) : frame.length ≤ 271 := by
  obtain ⟨i, hi⟩ := h.row
  cases i with
  | txGetNetStart | txGetCinfo | txSynOnline | txGetData =>
    obtain rfl := congrArg Prod.snd hi
    simp [encode]
  | _ => exact absurd (congrArg Prod.fst hi) nofun

theorem buffersSound_startTx {frame : List Byte} (hframe : RequestFrame frame) (next : TxNext) {s : State}
    (h : BuffersSound s) : BuffersSound (startTx frame next s) :=
  { h with txBuf := h.txBuf.writeBytes (hframe.length_le.trans' (Nat.zero_add _).le) }

theorem bufferFields_blockStep (s : State) : bufferFields (blockStep s) = bufferFields s := by
  rcases blockStep_cases s with ⟨_, h⟩ | ⟨_, _, h⟩ | ⟨_, _, _, h⟩ | ⟨_, _, _, h⟩ <;> rw [h]
  case inr.inr.inr => rw [enterNext_eq]; rfl
  all_goals rfl

/-! ### Host operations -/

theorem buffersSound_whenIdle {act : State → State} (hact : ∀ s, BuffersSound s → BuffersSound (act s)) {s : State}
    (h : BuffersSound s) : BuffersSound (whenIdle act s) := by
  rcases whenIdle_cases act s with ⟨_, hs⟩ | ⟨_, hs⟩ <;> rw [hs]
  · exact hact s h
  · exact h.of_fields_eq rfl

theorem buffersSound_discoverIdle (s : State) (h : BuffersSound s) : BuffersSound (discoverIdle s) :=
  buffersSound_startTx requestFrame_netStart _ (h.of_fields_eq rfl)

theorem buffersSound_enumerateIdle (s : State) (h : BuffersSound s) : BuffersSound (enumerateIdle s) := by
  rcases enumerateIdle_cases s with ⟨_, hs⟩ | ⟨_, hs⟩ <;> rw [hs]
  · exact h.of_fields_eq rfl
  · exact buffersSound_startTx (requestFrame_cinfo _) _ (h.of_fields_eq rfl)

theorem buffersSound_pollIdle (s : State) (h : BuffersSound s) : BuffersSound (pollIdle s) :=
  buffersSound_startTx (requestFrame_syn _) _ (h.of_fields_eq rfl)

theorem buffersSound_pollSlot (slot : Option (Nat × Nat)) {s : State} (h : BuffersSound s) :
    BuffersSound (pollSlot slot s) := by
  rcases pollSlot_cases slot s with ⟨_, hs⟩ | ⟨d, k, _, hs⟩ <;> rw [hs]
  · exact h.of_fields_eq rfl
  · exact buffersSound_startTx (requestFrame_data _ _ _ _) _ (h.of_fields_eq rfl)

theorem buffersSound_reservedOp {s : State} (h : BuffersSound s) : BuffersSound (reservedOp s) := by
  rcases reservedOp_cases s with ⟨_, hs⟩ | ⟨_, hs⟩ <;> rw [hs] <;> exact h.of_fields_eq rfl

theorem buffersSound_of_execContinuePoll {s t : State} (h : BuffersSound s) (hexec : execContinuePoll s = .next t) :
    BuffersSound t := by
  rcases execContinuePoll_cases s with ⟨_, hs⟩ | ⟨_, hs⟩ | ⟨_, _, hs⟩ <;>
    obtain rfl := Host.Outcome.next.inj (hs.symm.trans hexec)
  case inr.inl => exact buffersSound_pollSlot _ (h.of_fields_eq rfl)
  all_goals exact h.of_fields_eq rfl

theorem buffersSound_of_execAbort {s t : State} (h : BuffersSound s) (hexec : execAbort s = .next t) :
    BuffersSound t := by
  rcases execAbort_cases s with ⟨_, hs⟩ | ⟨_, hs⟩ | ⟨_, _, hs⟩ <;>
    obtain rfl := Host.Outcome.next.inj (hs.symm.trans hexec) <;> exact h.of_fields_eq rfl

theorem buffersSound_of_command {w : Word} {s t : State} (h : BuffersSound s)
    (hexec : exec (decodeCommand w) s = .next t) : BuffersSound t := by
  rcases command_cases w s with hs | hs | hs | hs | hs | hs | hs | hs <;> rw [hs] at hexec
  case inr.inr.inr.inr.inl => exact buffersSound_of_execContinuePoll h hexec
  case inr.inr.inr.inr.inr.inl => exact buffersSound_of_execAbort h hexec
  all_goals obtain rfl := Host.Outcome.next.inj hexec
  · exact h
  · exact buffersSound_whenIdle buffersSound_discoverIdle h
  · exact buffersSound_whenIdle buffersSound_enumerateIdle h
  · exact buffersSound_whenIdle buffersSound_pollIdle h
  · exact buffersSound_reservedOp h
  · exact buffersSound_resetState s

theorem bufferFields_writeReg (w : Word) (s : State) (r : HostReg) :
    bufferFields (writeReg w s r) = bufferFields s := by
  cases r with
  | arg | crt =>
    rw [writeReg]
    split <;> rfl
  | _ => rfl

/-! ### Link events -/

theorem buffersSound_closeBuffer {s : State} (h : BuffersSound s) : BuffersSound (closeBuffer s) :=
  h.with_receiver (h.receiver.of_state_ne_pay rfl nofun)

theorem buffersSound_storeResponse {r : Response} {s : State} (h : BuffersSound s)
    (hr : r.payload.length ≤ s.params.reasmMax) : BuffersSound (storeResponse r s) :=
  { h with
    respBuf := h.respBuf.writeBytes (hr.trans' (Nat.zero_add _).le)
    respLen := (Nat.mod_le _ _).trans hr }

theorem buffersSound_storeFailure (c : Code) {s : State} (h : BuffersSound s) : BuffersSound (storeFailure c s) :=
  { h with respLen := Nat.zero_le _ }

theorem buffersSound_concludeOp (c : Code) {s : State} (h : BuffersSound s) : BuffersSound (concludeOp c s) := by
  rcases concludeOp_cases c s with ⟨_, hs⟩ | ⟨_, hs⟩ <;> rw [hs] <;> exact h.of_fields_eq rfl

theorem buffersSound_uniResult {res : ReasmResult} {s : State} (h : BuffersSound s)
    (hres : ∀ r, res = .complete r → r.payload.length ≤ s.params.reasmMax) : BuffersSound (uniResult res s) := by
  cases res with
  | pending => exact h
  | complete r => exact buffersSound_concludeOp _ (buffersSound_storeResponse h (hres r rfl))
  | inconsistent | overflow => exact buffersSound_concludeOp _ (buffersSound_storeFailure _ h)

/-- The gather writes no buffer (R124 to R126). -/
theorem bufferFields_gatherResult (res : ReasmResult) (s : State) :
    bufferFields (gatherResult res s) = bufferFields s := by
  cases res with
  | complete r =>
    rw [gatherResult, gatherResponse]
    split
    · rcases gatherInsert_cases r.src (payloadSerial r.payload) (payloadTag r.payload) s with
        ⟨_, _, h⟩ | ⟨_, _, h⟩ | ⟨_, _, h⟩ <;> rw [h] <;> rfl
    · rfl
  | pending | inconsistent | overflow => rfl

theorem buffersSound_deliver {f : Frame} (hf : f.payload.length ≤ 255) {s : State} (h : BuffersSound s) :
    BuffersSound (deliver f s) := by
  obtain ⟨h255, _⟩ := reasmMax_bounds s.params
  obtain ⟨hacc, hresponse⟩ := reassemblySound_reasmStep h.accumulator h255 hf
  have hstate : BuffersSound (reasmState f s) := h.with_accumulator hacc
  rcases deliver_cases f s with ⟨_, hs⟩ | ⟨_, hs⟩ | ⟨_, _, hs⟩ <;> rw [hs]
  · exact buffersSound_uniResult hstate hresponse
  · exact hstate.of_fields_eq (bufferFields_gatherResult _ _)
  · exact h.of_fields_eq rfl

theorem buffersSound_rxTimeout {s : State} (h : BuffersSound s) : BuffersSound (doRxTimeout s) := by
  rcases doRxTimeout_cases s with ⟨_, _, hs⟩ | ⟨_, _, _, hs⟩ | ⟨_, _, _, hs⟩ | ⟨_, hs⟩ <;> rw [hs]
  case inl => exact buffersSound_concludeOp _ (buffersSound_storeFailure _ h)
  all_goals exact h.of_fields_eq rfl

theorem buffersSound_linkError {s : State} (h : BuffersSound s) : BuffersSound (doLinkError s) := by
  rcases doLinkError_cases s with ⟨_, hs⟩ | ⟨_, hs⟩ <;> rw [hs] <;>
    exact (buffersSound_closeBuffer h).of_fields_eq rfl

/-! ### Every step -/

theorem buffersSound_of_eventCases {s t : State} {e : Event} (h : BuffersSound s) (hevent : EventCases s t e) :
    BuffersSound t := by
  cases e with
  | hostRead off => obtain rfl := hevent; exact h.of_fields_eq rfl
  | hostWrite off w =>
    rcases hevent with ⟨_, hexec⟩ | ⟨_, rfl⟩
    · exact buffersSound_of_command h hexec
    · exact h.of_fields_eq (bufferFields_writeReg w s _)
  | reset => obtain rfl := hevent; exact buffersSound_resetState s
  | blockStep => obtain rfl := hevent; exact h.of_fields_eq (bufferFields_blockStep s)
  | rxByte b =>
    obtain rfl := hevent
    exact (h.with_receiver (receiverSound_parseByte h.receiver b)).of_fields_eq rfl
  | rxQuiet =>
    rcases hevent with ⟨_, rfl⟩ | ⟨err, _, _, rfl⟩ | ⟨f, _, hok, rfl⟩
    · exact h
    · cases err <;> exact (buffersSound_closeBuffer h).of_fields_eq rfl
    · exact buffersSound_deliver (parserVerdict_payload hok) (buffersSound_closeBuffer h)
  | rxTimeout => obtain rfl := hevent; exact buffersSound_rxTimeout h
  | settleElapsed =>
    rcases hevent with ⟨_, rfl⟩ | ⟨_, rfl⟩
    · exact h
    · exact buffersSound_pollSlot _ h
  | linkError => obtain rfl := hevent; exact buffersSound_linkError h

/-- Settles O52: the block's turn writes no buffer, and each event keeps them sound. -/
theorem everyStepKeepsBuffersSound : Obligations.EveryStepKeepsBuffersSound := by
  unfold Obligations.EveryStepKeepsBuffersSound
  intro s t h hstep
  rcases step_cases hstep with ⟨_, rfl⟩ | ⟨e, rest, _, hevent⟩
  · exact h.of_fields_eq (bufferFields_blockStep s)
  · exact buffersSound_of_eventCases (s := setInputs rest s) (h.of_fields_eq rfl) hevent

/-! ### The reset state -/

theorem sequencerSound_reset : SequencerSound State.reset := ⟨rfl, nofun, nofun, nofun, nofun⟩

theorem codesLegal_reset : CodesLegal State.reset := ⟨rfl, rfl, Nat.zero_le _⟩

theorem cursorSound_reset : CursorSound State.reset := ⟨nofun, nofun⟩

/-- Settles O51: after reset every buffer and table is empty, the sequencer is in IDLE and every code is 0 (R29). -/
theorem resetStateIsSound : Obligations.ResetStateIsSound := by
  unfold Obligations.ResetStateIsSound
  exact ⟨buffersSound_resetState State.reset, sequencerSound_reset, .of_clear rfl rfl, codesLegal_reset,
    .of_muxState_ne_tx nofun, cursorSound_reset⟩

end Sys2Proof.Machine
end

section
/-! SUPPORT. The block's turns through the rest of a frame (42_multiplexer R119), with nothing scheduled; with them
O35. -/

namespace Sys2Proof.Machine

/-- A run goes on from the state its first `j` steps lead to. -/
theorem run_add_of_run {M : Host.Core} {s t : M.State} {j : Nat} (h : M.run j s = .next t) (k : Nat) :
    M.run (j + k) s = M.run k t := by
  induction j generalizing s with
  | zero =>
    obtain rfl := Host.Outcome.next.inj h
    rw [Nat.zero_add]
  | succ j ih =>
    rw [Host.Core.run] at h
    cases hstep : M.step s with
    | next u =>
      rw [hstep] at h
      rw [Nat.succ_add, run_succ_of_step hstep]
      exact ih h
    | fault | refused => rw [hstep] at h; exact absurd h nofun

/-! ### All bytes but the last -/

/-- The state after the next `k` bytes of the frame are out, more of it to come (R50, R119). -/
def afterSending (k : Nat) (s : State) : State :=
  { s with
    tx := { s.tx with idx := s.tx.idx + BitVec.ofNat 9 k }
    env := { s.env with txStream := s.env.txStream ++ Memory.readBytes s.tx.buf s.tx.idx.toNat k } }

theorem afterSending_zero (s : State) : afterSending 0 s = s := by
  simp [afterSending, Memory.readBytes]

theorem afterSending_emitByte {s : State} (h : s.tx.idx.toNat < s.tx.len.toNat) (k : Nat) :
    afterSending k (emitByte s) = afterSending (k + 1) s := by
  have hidx : s.tx.idx + 1 + BitVec.ofNat 9 k = s.tx.idx + BitVec.ofNat 9 (k + 1) := by bv_omega
  have hnext : (s.tx.idx + 1).toNat = s.tx.idx.toNat + 1 := by bv_omega
  simp only [afterSending, emitByte, hidx, hnext, Memory.readBytes, List.append_assoc, List.singleton_append]

/-- A byte with more to come leaves the block in TX, one byte on (R119). -/
theorem blockStep_of_more {s : State} (htx : s.seq.muxState = .tx) (hmore : s.tx.idx.toNat + 1 < s.tx.len.toNat) :
    blockStep s = emitByte s := by
  have hne : s.tx.idx + 1 ≠ s.tx.len := by bv_omega
  rcases blockStep_cases s with ⟨hm, _⟩ | ⟨_, _, h⟩ | ⟨_, hlast, _⟩ | ⟨_, hlast, _⟩
  · exact absurd htx hm
  · exact h
  · exact absurd hlast hne
  · exact absurd hlast hne

/-- With nothing scheduled the bytes go out in order, one a step, as long as the frame has more (R50, R119). -/
theorem run_sending (k : Nat) {s : State} (hempty : s.env.inputs = []) (htx : s.seq.muxState = .tx)
    (hk : s.tx.idx.toNat + k < s.tx.len.toNat) : core.run k s = .next (afterSending k s) := by
  induction k generalizing s with
  | zero => rw [afterSending_zero]; rfl
  | succ k ih =>
    have hstep : step s = .next (emitByte s) := by
      rw [step_of_empty_schedule hempty, blockStep_of_more htx (by omega)]
    have hnext : (emitByte s).tx.idx.toNat + k < (emitByte s).tx.len.toNat := by
      rw [emitByte_tx_idx, emitByte_tx_len]
      bv_omega
    refine (run_succ_of_step (M := core) hstep k).trans ?_
    rw [← afterSending_emitByte (by omega)]
    exact ih hempty htx hnext

/-! ### The last byte -/

/-- The run that sends the rest of a frame ends with the turn that sends its last byte (R50, R119). -/
theorem run_to_frame_end {s : State} (hempty : s.env.inputs = []) (htx : s.seq.muxState = .tx) {k : Nat}
    (hk : s.tx.idx.toNat + (k + 1) = s.tx.len.toNat) :
    core.run (k + 1) s = .next (blockStep (afterSending k s)) :=
  (run_add_of_run (M := core) (run_sending k hempty htx (by omega)) 1).trans
    (run_succ_of_step (M := core) (step_of_empty_schedule (s := afterSending k s) hempty) 0)

/-- The stream after the last byte: the rest of the frame follows what was sent before (R50). -/
theorem txStream_emitByte_afterSending {s : State} {k : Nat} (hk : s.tx.idx.toNat + (k + 1) = s.tx.len.toNat) :
    (emitByte (afterSending k s)).env.txStream =
      s.env.txStream ++ Memory.readBytes s.tx.buf s.tx.idx.toNat (k + 1) := by
  have hidx : (s.tx.idx + BitVec.ofNat 9 k).toNat = s.tx.idx.toNat + k := by bv_omega
  rw [Memory.readBytes_append, ← List.append_assoc, ← hidx]
  rfl

/-- Settles O35: `run_to_frame_end` gives the state after the last byte, by induction over the bytes before it. -/
theorem pendingFrameIsSentWhole : Obligations.PendingFrameIsSentWhole := by
  unfold Obligations.PendingFrameIsSentWhole
  intro s hempty htx hlt
  obtain ⟨k, hk⟩ := Nat.exists_eq_add_of_lt hlt
  have hend : s.tx.idx.toNat + (k + 1) = s.tx.len.toNat := by omega
  have hcount : s.tx.len.toNat - s.tx.idx.toNat = k + 1 := by omega
  have hlast : s.tx.idx + BitVec.ofNat 9 k + 1 = s.tx.len := by bv_omega
  have hstream := txStream_emitByte_afterSending hend
  rw [hcount]
  refine ⟨_, run_to_frame_end hempty htx hend, ?_⟩
  rcases blockStep_cases (afterSending k s) with ⟨hm, _⟩ | ⟨_, hmore, _⟩ | ⟨_, _, habort, ht⟩ | ⟨_, _, hclear, ht⟩
  · exact absurd htx hm
  · exact absurd hlast hmore
  · rw [ht]
    exact ⟨hstream, rfl, rfl, rfl, rfl, rfl, fun _ => ⟨rfl, rfl⟩, fun hclear => absurd (habort.symm.trans hclear) nofun⟩
  · rw [ht]
    simp only [enterNext_env, enterNext_tx, enterNext_rx, enterNext_tab, enterNext_resp, enterNext_cnt, enterNext_ctl]
    refine ⟨hstream, rfl, rfl, rfl, rfl, rfl, fun habort => absurd (habort.symm.trans hclear) nofun,
      fun _ => ⟨rfl, fun hnext => ?_, fun hnext => ?_, fun hnext => ?_⟩⟩
    · rw [enterNext_of_awaitUni (s := emitByte (afterSending k s)) hnext]; rfl
    · rw [enterNext_of_awaitGather (s := emitByte (afterSending k s)) hnext]; rfl
    · rw [enterNext_of_settle (s := emitByte (afterSending k s)) hnext]

end Sys2Proof.Machine
end

section
/-! SUPPORT. What a host access and the end of a receive buffer do to the step (20_memory R32, R35, 40_frame_codec R88),
in every state; with them O11, O15 and O13. -/

namespace Sys2Proof.Machine

/-! ### Host accesses -/

/-- No register shows the schedule. -/
@[simp] theorem readReg_setInputs (es : List Event) (s : State) (r : HostReg) :
    readReg (setInputs es s) r = readReg s r := by
  cases r <;> rfl

/-- A host read shows the register's value on the port (R32). -/
theorem step_of_hostRead {s : State} {off : Offset} {rest : List Event} (h : s.env.inputs = .hostRead off :: rest) :
    step s = .next (doHostRead off (setInputs rest s)) := by
  rw [step_of_event h]
  rfl

/-- A write of CMD runs the operation the word selects (R35, R61). -/
theorem step_of_command {s : State} {off : Offset} {w : Word} {rest : List Event}
    (h : s.env.inputs = .hostWrite off w :: rest) (hreg : regAt s.params off = .cmd) :
    step s = exec (decodeCommand w) (setInputs rest s) := by
  rw [step_of_event h, fetchEvent, fetchHostWrite, setInputs_params, hreg]
  rfl

/-- A write of any other register runs no instruction (R33). -/
theorem step_of_writeReg {s : State} {off : Offset} {w : Word} {rest : List Event} {r : HostReg}
    (h : s.env.inputs = .hostWrite off w :: rest) (hreg : regAt s.params off = r) (hcmd : r ≠ .cmd) :
    step s = .next (writeReg w (setInputs rest s) r) := by
  rw [step_of_event h, fetchEvent, fetchHostWrite, setInputs_params, hreg]
  cases r with
  | cmd => exact absurd rfl hcmd
  | _ => rfl

/-- Settles O15: the step is the host read, whose value the schedule has no part in. -/
theorem hostReadChangesNoState : Obligations.HostReadChangesNoState := by
  unfold Obligations.HostReadChangesNoState
  intro s off rest h
  rw [step_of_hostRead h, doHostRead, hostRead, readReg_setInputs]
  rfl

/-! ### The end of a receive buffer -/

/-- At the quiet gap after a good frame without a row, the step delivers the frame (30_encoding R59, R120). -/
theorem step_of_rxQuiet_unlisted {s : State} {rest : List Event} {f : Frame}
    (h : s.env.inputs = .rxQuiet :: rest) (hopen : s.rx.state ≠ .idle) (hverdict : parserVerdict s.rx = .ok f)
    (hrow : receivedRow f = none) : step s = .next (deliver f (closeBuffer (setInputs rest s))) := by
  have hfetch : fetchRxQuiet (setInputs rest s) = .settled (deliver f (closeBuffer (setInputs rest s))) := by
    simp [fetchRxQuiet, fetchFrame, hopen, hverdict, hrow]
  rw [step_of_event h, fetchEvent, hfetch]
  rfl

/-- A CMD word, byte by byte, decodes to the operation it selects (20_memory R44, R61). -/
theorem decode_hostCommand_le32Bytes (w : Word) : decode .hostCommand (le32Bytes w) = .instr (decodeCommand w) := by
  rw [decode, le32Bytes, decodeHostCommand, le32_of_le32Bytes]

/-- Settles O11: a CMD write, the quiet gap after a frame with a row, and after one without. -/
theorem stepRunsTheDecodedInstruction : Obligations.StepRunsTheDecodedInstruction := by
  unfold Obligations.StepRunsTheDecodedInstruction
  refine ⟨fun s off w rest i h hreg hdecode => ?_, fun s rest f h hopen hverdict => ⟨fun i hrow => ?_, fun hrow => ?_⟩⟩
  · rw [decode_hostCommand_le32Bytes] at hdecode
    obtain rfl := Decoded.instr.inj hdecode
    exact step_of_command h hreg
  · exact step_of_rxQuiet_row h hopen hverdict hrow
  · exact step_of_rxQuiet_unlisted h hopen hverdict hrow

/-! ### Every step goes on -/

/-- Every host operation answers a next state, in any state of the sequencer (42_multiplexer R109). -/
theorem command_goes_on (w : Word) (s : State) : ∃ t, exec (decodeCommand w) s = .next t := by
  rcases command_cases w s with h | h | h | h | h | h | h | h
  case inr.inr.inr.inr.inl =>
    rcases execContinuePoll_cases s with ⟨_, hs⟩ | ⟨_, hs⟩ | ⟨_, _, hs⟩ <;> exact ⟨_, h.trans hs⟩
  case inr.inr.inr.inr.inr.inl =>
    rcases execAbort_cases s with ⟨_, hs⟩ | ⟨_, hs⟩ | ⟨_, _, hs⟩ <;> exact ⟨_, h.trans hs⟩
  all_goals exact ⟨_, h⟩

theorem hostWrite_goes_on {s : State} {off : Offset} {w : Word} {rest : List Event}
    (h : s.env.inputs = .hostWrite off w :: rest) : StepGoesOn s := by
  by_cases hreg : regAt s.params off = .cmd
  · obtain ⟨t, ht⟩ := command_goes_on w (setInputs rest s)
    exact ⟨t, (step_of_command h hreg).trans ht⟩
  · exact ⟨_, step_of_writeReg h rfl hreg⟩

/-- A receive row never faults in a step: the verdict takes the payload's length from one byte (40_frame_codec R88,
log 10). -/
theorem rxQuiet_goes_on {s : State} {rest : List Event} (h : s.env.inputs = .rxQuiet :: rest) : StepGoesOn s := by
  by_cases hopen : s.rx.state = .idle
  · exact ⟨setInputs rest s, by simp [step_of_event h, fetchEvent, fetchRxQuiet, hopen, Fetched.outcome]⟩
  · cases hverdict : parserVerdict s.rx with
    | bad e =>
      exact ⟨countFrameError e (closeBuffer (setInputs rest s)),
        by simp [step_of_event h, fetchEvent, fetchRxQuiet, hopen, hverdict, Fetched.outcome]⟩
    | ok f =>
      cases hrow : receivedRow f with
      | none => exact ⟨_, step_of_rxQuiet_unlisted h hopen hverdict hrow⟩
      | some i =>
        exact ⟨_, (step_of_rxQuiet_row h hopen hverdict hrow).trans
          (exec_receivedRow hrow (parserVerdict_payload hverdict) _)⟩

/-- The end of the settle wait starts a data request, completes the POLL or changes nothing (42_multiplexer R129,
R133). -/
theorem settleElapsed_goes_on (s : State) : ∃ t, (fetchSettle s).outcome = .next t := by
  unfold fetchSettle
  split
  · split <;> exact ⟨_, rfl⟩
  all_goals exact ⟨_, rfl⟩

/-- Settles O13: case by case over the event the step takes. -/
theorem everyStepGoesOn : Obligations.EveryStepGoesOn := by
  unfold Obligations.EveryStepGoesOn
  intro s
  cases h : s.env.inputs with
  | nil => exact ⟨_, step_of_empty_schedule h⟩
  | cons e rest =>
    cases e with
    | hostWrite off w => exact hostWrite_goes_on h
    | rxQuiet => exact rxQuiet_goes_on h
    | settleElapsed =>
      obtain ⟨t, ht⟩ := settleElapsed_goes_on (setInputs rest s)
      exact ⟨t, (step_of_event h).trans ht⟩
    | _ => exact ⟨_, step_of_event h⟩

end Sys2Proof.Machine
end

section
/-! SUPPORT. The register map (20_memory R31): the register at an offset, window by window; with it O14. -/

namespace Sys2Proof.Machine

/-! ### Aligned offsets (R32) -/

theorem alignedOffset_ofNat {a : Nat} (h : a < 0x2000) : alignedOffset (BitVec.ofNat 13 a) = 4 * (a / 4) := by
  rw [alignedOffset, BitVec.toNat_ofNat, Nat.mod_eq_of_lt h]

/-- Clearing the low two offset bits leaves the aligned offset as it is. -/
theorem alignedOffset_and_mask (off : Offset) : alignedOffset (off &&& 0x1FFC) = alignedOffset off := by
  have hlt : off.toNat / 4 < 2 ^ 11 := by omega
  have hmask : (off.toNat &&& 0x1FFC) / 4 = off.toNat / 4 :=
    calc (off.toNat &&& 0x1FFC) / 2 ^ 2 = off.toNat / 2 ^ 2 &&& 2 ^ 11 - 1 := Nat.and_div_two_pow
      _ = off.toNat / 2 ^ 2 % 2 ^ 11 := Nat.and_two_pow_sub_one_eq_mod _ _
      _ = off.toNat / 4 := Nat.mod_eq_of_lt hlt
  exact congrArg (4 * ·) hmask

theorem regAt_congr (p : Params) {off off' : Offset} (h : alignedOffset off = alignedOffset off') :
    regAt p off = regAt p off' := by
  rw [regAt, regAt, h]

/-! ### The windows -/

/-- Below the windows (R31). -/
theorem regAt_plain (p : Params) {off : Offset} (h : alignedOffset off < 0x100) :
    regAt p off = plainReg (alignedOffset off) := if_pos h

/-- The device window (R31). -/
theorem regAt_device (p : Params) {off : Offset} (hlo : 0x100 ≤ alignedOffset off) (hhi : alignedOffset off < 0x200) :
    regAt p off = deviceReg p (alignedOffset off) := by
  rw [regAt, if_neg (by omega), if_pos hhi]

/-- The channel request window (R31). -/
theorem regAt_slot (p : Params) {off : Offset} (hlo : 0x200 ≤ alignedOffset off) (hhi : alignedOffset off < 0x400) :
    regAt p off = slotReg p (alignedOffset off) := by
  rw [regAt, if_neg (by omega), if_neg (by omega), if_pos hhi]

/-- The hole between the windows (R31). -/
theorem regAt_hole (p : Params) {off : Offset} (hlo : 0x400 ≤ alignedOffset off) (hhi : alignedOffset off < 0x1000) :
    regAt p off = .unmapped := by
  rw [regAt, if_neg (by omega), if_neg (by omega), if_neg (by omega), if_pos hhi]

/-- The response window (R31). -/
theorem regAt_resp (p : Params) {off : Offset} (hlo : 0x1000 ≤ alignedOffset off) :
    regAt p off = respReg p (alignedOffset off) := by
  rw [regAt, if_neg (by omega), if_neg (by omega), if_neg (by omega), if_neg (by omega)]

/-- The last register below the windows is at 0x040 (R31). -/
theorem plainReg_of_le {a : Nat} (h : 0x044 ≤ a) : plainReg a = .unmapped := by
  have hne : ∀ n < 0x044, a ≠ n := by omega
  simp [plainReg, hne]

/-! ### The registers in a window -/

theorem alignedOffset_of_aligned {a : Nat} (h : a < 0x2000) (h4 : a % 4 = 0) :
    alignedOffset (BitVec.ofNat 13 a) = a := by
  rw [alignedOffset_ofNat h]
  omega

theorem regAt_device_of_aligned (p : Params) {a : Nat} (hlo : 0x100 ≤ a) (hhi : a < 0x200) (h4 : a % 4 = 0) :
    regAt p (BitVec.ofNat 13 a) = deviceReg p a := by
  have ha := alignedOffset_of_aligned (a := a) (by omega) h4
  rw [regAt_device p (by omega) (by omega), ha]

/-- The four words of device entry `i` (R31, R41). -/
theorem deviceReg_words {p : Params} {i : Nat} (hi : i < p.maxDevices) :
    deviceReg p (0x100 + 16 * i) = .devAddr i ∧ deviceReg p (0x104 + 16 * i) = .devSerial i ∧
      deviceReg p (0x108 + 16 * i) = .devTypeLo i ∧ deviceReg p (0x10C + 16 * i) = .devTypeHi i := by
  have hmax := Nat.not_le.mpr hi
  have hentry (b : Nat) (hb : b < 16) : (0x100 + b + 16 * i - 0x100) / 16 = i := by omega
  have hfield (b : Nat) (hb : b < 16) : (0x100 + b + 16 * i) % 16 / 4 = b / 4 := by omega
  refine ⟨?_, ?_, ?_, ?_⟩
  · rw [deviceReg, hentry 0x0 (by omega), if_neg hmax, hfield 0x0 (by omega)]; rfl
  · rw [deviceReg, hentry 0x4 (by omega), if_neg hmax, hfield 0x4 (by omega)]; rfl
  · rw [deviceReg, hentry 0x8 (by omega), if_neg hmax, hfield 0x8 (by omega)]; rfl
  · rw [deviceReg, hentry 0xC (by omega), if_neg hmax, hfield 0xC (by omega)]; rfl

/-- An entry from `P_MAX_DEVICES` on has no register (R31). -/
theorem deviceReg_of_maxDevices_le {p : Params} {a : Nat} (h : p.maxDevices ≤ (a - 0x100) / 16) :
    deviceReg p a = .unmapped := if_pos h

/-- Slot `k` of device `i` (R31, R42). -/
theorem regAt_slotWord (p : Params) {i k : Nat} (hi : i < 16) (hk : k < 8) :
    regAt p (BitVec.ofNat 13 (0x200 + 32 * i + 4 * k)) = if i < p.maxDevices then .crt i k else .unmapped := by
  have ha := alignedOffset_of_aligned (a := 0x200 + 32 * i + 4 * k) (by omega) (by omega)
  have hrow : (0x200 + 32 * i + 4 * k - 0x200) / 32 = i := by omega
  have hslot : (0x200 + 32 * i + 4 * k) % 32 / 4 = k := by omega
  rw [regAt_slot p (by omega) (by omega), ha, slotReg, hrow, hslot]
  simp only [← Nat.not_lt, ite_not]

/-- Word `m` of the response window (R31, R43). -/
theorem regAt_respWord (p : Params) {m : Nat} (hm : m < 1024) :
    regAt p (BitVec.ofNat 13 (0x1000 + 4 * m)) = if 4 * m < p.reasmMax then .respBuf m else .unmapped := by
  have ha := alignedOffset_of_aligned (a := 0x1000 + 4 * m) (by omega) (by omega)
  rw [regAt_resp p (by omega), ha, respReg, Nat.add_sub_cancel_left, Nat.mul_div_cancel_left m (by omega)]
  simp only [← Nat.not_lt, ite_not]

/-- Every offset of the holes is unmapped (R31). -/
theorem regAt_of_hole (p : Params) {a : Nat} (h : (0x044 ≤ a ∧ a < 0x100) ∨ (0x400 ≤ a ∧ a < 0x1000)) :
    regAt p (BitVec.ofNat 13 a) = .unmapped := by
  have ha := alignedOffset_ofNat (a := a) (by omega)
  rcases h with h | h
  · rw [regAt_plain p (by omega), plainReg_of_le (by omega)]
  · exact regAt_hole p (by omega) (by omega)

/-- Settles O14: the mask, the registers below the windows, the holes, and each window by its own lemma. -/
theorem offsetsSelectTheRegisters : Obligations.OffsetsSelectTheRegisters := by
  unfold Obligations.OffsetsSelectTheRegisters
  intro p
  refine ⟨fun off => regAt_congr p (alignedOffset_and_mask off).symm, rfl, fun a h => regAt_of_hole p h,
    fun i hi hmax => ?_, fun i hi hmax j hj => ?_, fun i hi k hk => regAt_slotWord p hi hk,
    fun m hm => regAt_respWord p hm⟩
  · obtain ⟨haddr, hserial, hlo, hhi⟩ := deviceReg_words hmax
    refine ⟨?_, ?_, ?_, ?_⟩ <;> rw [regAt_device_of_aligned p (by omega) (by omega) (by omega)]
    exacts [haddr, hserial, hlo, hhi]
  · rw [regAt_device_of_aligned p (by omega) (by omega) (by omega), deviceReg_of_maxDevices_le (by omega)]

end Sys2Proof.Machine
end

section
/-! SUPPORT. The fields of a register word (20_memory R45), and what the registers read and write (R33 to R41); with
them O16, O17, O18, O19, O22 and O23. -/

namespace Sys2Proof.Machine

/-! ### Fields of a word (R45) -/

/-- A field occupies the bits from its lowest one on. -/
theorem getLsbD_field {n : Nat} (lo : Nat) (v : BitVec n) (i : Nat) :
    (field lo v).getLsbD i = (decide (lo ≤ i ∧ i < 32) && v.getLsbD (i - lo)) := by
  by_cases hlo : lo ≤ i
  · by_cases h : i < 32 <;> simp [field, hlo, h]
  · simp [field, hlo, Nat.lt_of_not_le hlo]

/-- A field is read back from its own bits. -/
theorem extractLsb'_field_same {n lo : Nat} (v : BitVec n) (h : lo + n ≤ 32) :
    (field lo v).extractLsb' lo n = v := by
  apply BitVec.eq_of_getLsbD_eq
  intro i hi
  have hword : lo + i < 32 := by omega
  rw [BitVec.getLsbD_extractLsb', getLsbD_field]
  simp [hi, hword]

/-- A field leaves the bits below and above it 0. -/
theorem extractLsb'_field_outside {n lo start len : Nat} (v : BitVec n) (h : start + len ≤ lo ∨ lo + n ≤ start) :
    (field lo v).extractLsb' start len = 0 := by
  apply BitVec.eq_of_getLsbD_eq
  intro i hi
  rw [BitVec.getLsbD_extractLsb', getLsbD_field, show (0 : BitVec len).getLsbD i = false from BitVec.getLsbD_zero]
  rcases h with h | h
  · have hbelow : ¬lo ≤ start + i := by omega
    simp [hbelow]
  · have habove : n ≤ start + i - lo := by omega
    rw [BitVec.getLsbD_of_ge v _ habove, Bool.and_false, Bool.and_false]

/-- A one-bit field is its bit at its place. -/
theorem getLsbD_bit (lo : Nat) (b : Bool) (i : Nat) :
    (bit lo b).getLsbD i = (decide (i = lo ∧ i < 32) && b) := by
  have hone : (lo ≤ i ∧ i < 32 ∧ i - lo = 0) ↔ i = lo ∧ i < 32 := by omega
  rw [bit, getLsbD_field, BitVec.getLsbD_ofBool]
  simp only [← Bool.and_assoc, ← Bool.decide_and, and_assoc, hone]

/-- A one-bit field leaves every other bit 0. -/
theorem extractLsb'_bit_outside {lo start len : Nat} (b : Bool) (h : start + len ≤ lo ∨ lo + 1 ≤ start) :
    (bit lo b).extractLsb' start len = 0 := extractLsb'_field_outside _ h

theorem toNat_field {n lo : Nat} (v : BitVec n) (h : lo + n ≤ 32) : (field lo v).toNat = 2 ^ lo * v.toNat := by
  have hv : 2 ^ lo * v.toNat < 2 ^ 32 :=
    calc 2 ^ lo * v.toNat < 2 ^ lo * 2 ^ n := Nat.mul_lt_mul_of_pos_left v.isLt (Nat.two_pow_pos lo)
      _ = 2 ^ (lo + n) := (Nat.pow_add 2 lo n).symm
      _ ≤ 2 ^ 32 := Nat.pow_le_pow_right (by omega) h
  rw [field, BitVec.toNat_shiftLeft, BitVec.toNat_setWidth_of_le (by omega), Nat.shiftLeft_eq, Nat.mul_comm,
    Nat.mod_eq_of_lt hv]

/-- A field at bit 0 with another right above it, as a number. -/
theorem toNat_field_or_field {n m : Nat} (v : BitVec n) (u : BitVec m) (h : n + m ≤ 32) :
    (field 0 v ||| field n u).toNat = v.toNat + 2 ^ n * u.toNat := by
  rw [BitVec.toNat_or, toNat_field v (by omega), toNat_field u h, Nat.pow_zero, Nat.one_mul, Nat.or_comm,
    ← Nat.two_pow_add_eq_or_of_lt v.isLt, Nat.add_comm]

/-- The bytes of a word packed little-endian, by their place (R44, R45). -/
theorem extractLsb'_le32 (b : Nat → Byte) {j : Nat} (hj : j < 4) :
    (le32 (b 0) (b 1) (b 2) (b 3)).extractLsb' (8 * j) 8 = b j := by
  have hbytes := le32Bytes_le32 (b 0) (b 1) (b 2) (b 3)
  simp only [le32Bytes, List.cons.injEq, and_true] at hbytes
  obtain ⟨h0, h1, h2, h3⟩ := hbytes
  match j, hj with
  | 0, _ => exact h0
  | 1, _ => exact h1
  | 2, _ => exact h2
  | 3, _ => exact h3

/-! ### Reads -/

/-- A host read gives the value of the register at its offset (R32). -/
theorem hostRead_of_reg {s : State} {off : Offset} {r : HostReg} (h : regAt s.params off = r) :
    hostRead s off = readReg s r := congrArg (readReg s) h

/-- The STATUS fields and the reserved bits (R36). -/
theorem statusWord_fields (s : State) :
    (statusWord s).getLsbD 0 = busy s ∧ (statusWord s).getLsbD 1 = s.ctl.done ∧
      (statusWord s).getLsbD 2 = hold s ∧ (statusWord s).getLsbD 3 = s.ctl.devovf ∧
      (statusWord s).getLsbD 4 = s.ctl.linkerr ∧ (statusWord s).getLsbD 5 = s.ctl.cmderr ∧
      (statusWord s).extractLsb' 6 2 = 0 ∧ (statusWord s).extractLsb' 8 4 = s.ctl.err ∧
      (statusWord s).extractLsb' 12 20 = 0 := by
  simp only [statusWord, BitVec.getLsbD_or, BitVec.extractLsb'_or, getLsbD_bit, getLsbD_field]
  simp [extractLsb'_bit_outside, extractLsb'_field_same, extractLsb'_field_outside]

/-- The fields of RESP_STATUS and its reserved bits (R40). -/
theorem respStatusWord_fields (r : ResponseRegs) :
    (respStatusWord r).extractLsb' 0 4 = r.code ∧ (respStatusWord r).extractLsb' 4 4 = 0 ∧
      (respStatusWord r).extractLsb' 8 4 = r.dev ∧ (respStatusWord r).extractLsb' 12 4 = 0 ∧
      (respStatusWord r).extractLsb' 16 3 = r.slot ∧ (respStatusWord r).extractLsb' 19 12 = 0 ∧
      (respStatusWord r).getLsbD 31 = r.valid := by
  simp only [respStatusWord, BitVec.getLsbD_or, BitVec.extractLsb'_or, getLsbD_bit, getLsbD_field]
  simp [extractLsb'_bit_outside, extractLsb'_field_same, extractLsb'_field_outside]

/-- The fields of a CRT word and its reserved bits (R42). -/
theorem slotWord_fields (c : Slot) :
    (slotWord c).extractLsb' 0 8 = c.index ∧ (slotWord c).extractLsb' 8 8 = c.type1 ∧
      (slotWord c).extractLsb' 16 8 = c.type2 ∧ (slotWord c).extractLsb' 24 7 = 0 ∧
      (slotWord c).getLsbD 31 = c.valid := by
  simp only [slotWord, BitVec.getLsbD_or, BitVec.extractLsb'_or, getLsbD_bit, getLsbD_field]
  simp [extractLsb'_bit_outside, extractLsb'_field_same, extractLsb'_field_outside]

/-- Byte `j` of a tag word is the tag's byte `start + j` (R41). -/
theorem extractLsb'_tagWord (tag : Vector Byte 8) {start j : Nat} (hj : j < 4) (h : start + j < 8) :
    (tagWord tag start).extractLsb' (8 * j) 8 = tag[start + j] := by
  refine (extractLsb'_le32 (fun n => (tag[start + n]?).getD 0) hj).trans ?_
  simp [h]

/-- Settles O22: the fields of RESP_STATUS, and the other registers as numbers. -/
theorem responseRegistersReadTheirFields : Obligations.ResponseRegistersReadTheirFields := by
  unfold Obligations.ResponseRegistersReadTheirFields
  intro s off
  refine ⟨fun h => ?_, fun h => ?_, fun h => ?_, fun h => ?_, fun h => ?_⟩ <;> rw [hostRead_of_reg h]
  · exact respStatusWord_fields s.resp
  · exact BitVec.toNat_setWidth_of_le (by omega)
  · exact BitVec.toNat_setWidth_of_le (by omega)
  · exact toNat_field_or_field s.resp.ctl s.resp.cmd (by omega)
  · exact BitVec.toNat_setWidth_of_le (by omega)

/-- Settles O23: the counters and the count as numbers, and the four words of a device entry. -/
theorem tableAndCounterRegistersRead : Obligations.TableAndCounterRegistersRead := by
  unfold Obligations.TableAndCounterRegistersRead
  intro s off
  refine ⟨fun h => ?_, fun h => ?_, fun h => ?_, fun h => ?_, fun h => ?_, fun h => ?_, fun h => ?_,
    fun i => ⟨fun h => ?_, fun h => ?_, fun h j hj => ?_, fun h j hj => ?_⟩⟩ <;> rw [hostRead_of_reg h]
  case refine_9 => rfl
  case refine_10 =>
    have hbyte := extractLsb'_tagWord (deviceAt s i).tag (start := 0) hj (by omega)
    simp only [Nat.zero_add] at hbyte
    exact hbyte
  case refine_11 => exact extractLsb'_tagWord (deviceAt s i).tag (start := 4) hj (by omega)
  all_goals exact BitVec.toNat_setWidth_of_le (by omega)

/-! ### Writes -/

theorem busy_eq_false {s : State} (h : s.seq.muxState = .idle) : busy s = false := by simp [busy, h]

theorem busy_eq_true {s : State} (h : s.seq.muxState ≠ .idle) : busy s = true := by simp [busy, h]

/-- A write does nothing to a read-only register or an unmapped offset (R31, R33). -/
theorem writeReg_of_readOnly (w : Word) (s : State) {r : HostReg} (hctrl : r ≠ .ctrl) (hstatus : r ≠ .status)
    (harg : r ≠ .arg) (hcrt : ∀ i k, r ≠ .crt i k) : writeReg w s r = s := by
  cases r with
  | ctrl => exact absurd rfl hctrl
  | status => exact absurd rfl hstatus
  | arg => exact absurd rfl harg
  | crt i k => exact absurd rfl (hcrt i k)
  | _ => rfl

/-- ARG is written in IDLE (R37). -/
theorem writeReg_arg_of_idle (w : Word) {s : State} (h : s.seq.muxState = .idle) :
    writeReg w s .arg = { s with ctl := { s.ctl with arg := w } } := by
  rw [writeReg, busy_eq_false h, if_neg nofun]

/-- ARG is kept while busy (R37). -/
theorem writeReg_arg_of_busy (w : Word) {s : State} (h : s.seq.muxState ≠ .idle) : writeReg w s .arg = s := by
  rw [writeReg, busy_eq_true h, if_pos rfl]

/-- A channel request slot is written in IDLE (R42). -/
theorem writeReg_crt_of_idle (w : Word) {s : State} (h : s.seq.muxState = .idle) (i k : Nat) :
    writeReg w s (.crt i k) = setSlot i k (wordSlot w) s := by
  rw [writeReg, busy_eq_false h, if_neg nofun]

/-- The channel request table is kept while busy (R42). -/
theorem writeReg_crt_of_busy (w : Word) {s : State} (h : s.seq.muxState ≠ .idle) (i k : Nat) :
    writeReg w s (.crt i k) = s := by
  rw [writeReg, busy_eq_true h, if_pos rfl]

/-- Settles O16: those registers read 0 by R33 and R35, and `writeReg_of_readOnly`. -/
theorem unmappedAndReadOnlyAreInert : Obligations.UnmappedAndReadOnlyAreInert := by
  unfold Obligations.UnmappedAndReadOnlyAreInert
  refine fun s off => ⟨fun h => ?_, fun w rest h hctrl hcmd hstatus harg hcrt => ?_⟩
  · rcases h with h | h <;> rw [hostRead_of_reg h] <;> rfl
  · rw [step_of_writeReg h rfl hcmd, writeReg_of_readOnly w _ hctrl hstatus harg hcrt]
    rfl

/-- A bit a write of 1 clears, as a choice (R36). -/
theorem and_not_eq_ite (b c : Bool) : (b && !c) = if c then false else b := by
  cases c
  · exact Bool.and_true b
  · exact Bool.and_false b

/-- Settles O17: the fields of the STATUS word, and the four bits `writeStatus` clears. -/
theorem statusFieldsAndClears : Obligations.StatusFieldsAndClears := by
  unfold Obligations.StatusFieldsAndClears
  refine ⟨fun s off h => ?_, fun s off w rest h hreg => ?_⟩
  · rw [hostRead_of_reg h]
    exact statusWord_fields s
  · rw [step_of_writeReg h hreg nofun, writeReg, writeStatus]
    simp only [and_not_eq_ite]
    rfl

/-- Settles O18: `ie` is the one bit of CTRL. -/
theorem ctrlHoldsTheInterruptEnable : Obligations.CtrlHoldsTheInterruptEnable := by
  unfold Obligations.CtrlHoldsTheInterruptEnable
  refine fun s off hreg => ⟨?_, fun w rest h => step_of_writeReg h hreg nofun⟩
  rw [hostRead_of_reg hreg, readReg]
  cases s.ctl.ie <;> rfl

/-- Settles O19: ARG is written in IDLE only. -/
theorem argIsWrittenWhenIdle : Obligations.ArgIsWrittenWhenIdle := by
  unfold Obligations.ArgIsWrittenWhenIdle
  refine fun s off hreg => ⟨hostRead_of_reg hreg, fun w rest h => ⟨fun hidle => ?_, fun hbusy => ?_⟩⟩ <;>
    rw [step_of_writeReg h hreg nofun]
  · rw [writeReg_arg_of_idle w (s := setInputs rest s) hidle]
    rfl
  · rw [writeReg_arg_of_busy w (s := setInputs rest s) hbusy]
    rfl

end Sys2Proof.Machine
end

section
/-! SUPPORT. The channel request window and the response window (20_memory R42, R43); with them O20 and O21. -/

namespace Sys2Proof.Machine

/-! ### One slot of the channel request table -/

theorem slotRow_setSlot_same (i k : Nat) (c : Slot) {s : State} (hi : i < 16) :
    slotRow (setSlot i k c s) i = (slotRow s i).setIfInBounds k c := by
  simp [slotRow, setSlot, hi]

theorem slotRow_setSlot_other {i i' : Nat} (k : Nat) (c : Slot) (s : State) (h : i ≠ i') :
    slotRow (setSlot i k c s) i' = slotRow s i' := by
  simp [slotRow, setSlot, h]

/-- The slot written is read back, when the table has storage for it. -/
theorem slotAt_setSlot_same {i k : Nat} (c : Slot) (s : State) (hi : i < 16) (hk : k < 8) :
    slotAt (setSlot i k c s) i k = c := by
  rw [slotAt, slotRow_setSlot_same i k c hi, Vector.getElem?_setIfInBounds_self_of_lt hk, Option.getD_some]

/-- Every other slot is left alone. -/
theorem slotAt_setSlot_other {i k i' k' : Nat} (c : Slot) (s : State) (hi : i < 16) (h : (i', k') ≠ (i, k)) :
    slotAt (setSlot i k c s) i' k' = slotAt s i' k' := by
  by_cases hrow : i = i'
  · subst hrow
    have hk : k ≠ k' := fun hk => h (by rw [hk])
    rw [slotAt, slotRow_setSlot_same i k c hi, Vector.getElem?_setIfInBounds_ne hk, slotAt]
  · rw [slotAt, slotRow_setSlot_other k c s hrow, slotAt]

/-! ### The offsets of the channel request window (R31) -/

theorem plainReg_ne_crt (a i k : Nat) : plainReg a ≠ .crt i k := by
  simp [plainReg, ite_eq_iff]

theorem deviceReg_ne_crt (p : Params) (a i k : Nat) : deviceReg p a ≠ .crt i k := by
  unfold deviceReg
  dsimp only
  split_ifs
  · nofun
  · split <;> nofun

theorem respReg_ne_crt (p : Params) (a i k : Nat) : respReg p a ≠ .crt i k := by
  unfold respReg
  split_ifs <;> nofun

theorem slotReg_eq_crt {p : Params} {a i k : Nat} (h : slotReg p a = .crt i k) : i < p.maxDevices ∧ k < 8 := by
  unfold slotReg at h
  dsimp only at h
  split_ifs at h with hmax
  obtain ⟨rfl, rfl⟩ := HostReg.crt.inj h
  omega

/-- A slot register names a slot the table has (R31, R42). -/
theorem regAt_eq_crt {p : Params} {off : Offset} {i k : Nat} (h : regAt p off = .crt i k) :
    i < p.maxDevices ∧ k < 8 := by
  unfold regAt at h
  dsimp only at h
  split_ifs at h
  · exact absurd h (plainReg_ne_crt _ i k)
  · exact absurd h (deviceReg_ne_crt p _ i k)
  · exact slotReg_eq_crt h
  · exact absurd h (respReg_ne_crt p _ i k)

/-- Settles O20: a slot register names a slot in storage, which `setSlot` writes in IDLE and nothing else. -/
theorem channelRequestRegisters : Obligations.ChannelRequestRegisters := by
  unfold Obligations.ChannelRequestRegisters
  intro s off i k hreg
  obtain ⟨hdevice, hk⟩ := regAt_eq_crt hreg
  have hi : i < 16 := hdevice.trans_le (maxDevices_le s.params)
  refine ⟨?_, fun w rest h => ?_⟩
  · rw [hostRead_of_reg hreg]
    exact slotWord_fields (slotAt s i k)
  · have hstep := step_of_writeReg h hreg nofun
    refine ⟨fun hidle => ?_, fun hbusy => ?_⟩
    · rw [writeReg_crt_of_idle w (s := setInputs rest s) hidle] at hstep
      exact ⟨_, hstep, slotAt_setSlot_same _ _ hi hk,
        fun i' k' hne => slotAt_setSlot_other (wordSlot w) (setInputs rest s) hi hne, rfl⟩
    · rw [writeReg_crt_of_busy w (s := setInputs rest s) hbusy] at hstep
      exact hstep

/-! ### The response window -/

/-- Settles O21: the window's word at `4m` exists below `P_REASM_MAX` and packs the bytes `4m` to `4m + 3`. -/
theorem responseWindowPacksTheResponse : Obligations.ResponseWindowPacksTheResponse := by
  unfold Obligations.ResponseWindowPacksTheResponse
  intro s j hj
  obtain ⟨_, hmax⟩ := reasmMax_bounds s.params
  have hreg := regAt_respWord s.params (m := j / 4) (by omega)
  rw [if_pos hj] at hreg
  have hbyte := extractLsb'_le32 (fun n => respByte s.resp (4 * (j / 4) + n)) (Nat.mod_lt j (by omega))
  rw [Nat.div_add_mod] at hbyte
  rw [hostRead_of_reg hreg, readReg]
  exact hbyte

end Sys2Proof.Machine
end

section
/-! SUPPORT. ARG and the channel request table while the block is busy (20_memory R37, R42): no operation of a busy
block writes them; with it O58. -/

namespace Sys2Proof.Machine

/-- The operands the host writes before it starts an operation: ARG and the channel request table. -/
def operandFields (s : State) : Word × Vector (Vector Slot 8) 16 := (s.ctl.arg, s.tab.crt)

/-! ### Host accesses of a busy block -/

/-- A busy block refuses an operation that only an idle one accepts (42_multiplexer R109, R110). -/
theorem operandFields_whenIdle_of_busy (act : State → State) {s : State} (h : s.seq.muxState ≠ .idle) :
    operandFields (whenIdle act s) = operandFields s := by
  rcases whenIdle_cases act s with ⟨hidle, _⟩ | ⟨_, hs⟩
  · exact absurd hidle h
  · rw [hs]
    rfl

theorem operandFields_pollSlot (slot : Option (Nat × Nat)) (s : State) :
    operandFields (pollSlot slot s) = operandFields s := by
  rcases pollSlot_cases slot s with ⟨_, h⟩ | ⟨d, k, _, h⟩ <;> rw [h] <;> rfl

theorem operandFields_reservedOp (s : State) : operandFields (reservedOp s) = operandFields s := by
  rcases reservedOp_cases s with ⟨_, h⟩ | ⟨_, h⟩ <;> rw [h] <;> rfl

theorem operandFields_of_execContinuePoll {s t : State} (h : execContinuePoll s = .next t) :
    operandFields t = operandFields s := by
  rcases execContinuePoll_cases s with ⟨_, hs⟩ | ⟨_, hs⟩ | ⟨_, _, hs⟩ <;>
    obtain rfl := Host.Outcome.next.inj (hs.symm.trans h)
  case inr.inl => exact operandFields_pollSlot _ { s with resp := { s.resp with valid := false } }
  all_goals rfl

theorem operandFields_of_execAbort {s t : State} (h : execAbort s = .next t) :
    operandFields t = operandFields s := by
  rcases execAbort_cases s with ⟨_, hs⟩ | ⟨_, hs⟩ | ⟨_, _, hs⟩ <;>
    obtain rfl := Host.Outcome.next.inj (hs.symm.trans h) <;> rfl

/-- No host operation of a busy block but RESET writes the operands (R109, R117). -/
theorem operandFields_of_busy_command {w : Word} {s t : State} (hbusy : s.seq.muxState ≠ .idle)
    (hreset : decodeCommand w ≠ .reset) (h : exec (decodeCommand w) s = .next t) :
    operandFields t = operandFields s := by
  rcases decodeCommand_cases w with hi | hi | hi | hi | hi | hi | hi | hi
  case inr.inr.inr.inr.inr.inr.inl =>
    rw [exec_reservedRow hi] at h
    obtain rfl := Host.Outcome.next.inj h
    exact operandFields_reservedOp s
  all_goals rw [hi] at h
  case inr.inr.inr.inr.inl => exact operandFields_of_execContinuePoll h
  case inr.inr.inr.inr.inr.inl => exact operandFields_of_execAbort h
  case inr.inr.inr.inr.inr.inr.inr => exact absurd hi hreset
  all_goals obtain rfl := Host.Outcome.next.inj h
  · rfl
  · exact operandFields_whenIdle_of_busy discoverIdle hbusy
  · exact operandFields_whenIdle_of_busy enumerateIdle hbusy
  · exact operandFields_whenIdle_of_busy pollIdle hbusy

/-- A busy block ignores writes of ARG and of the channel request table (R37, R42). -/
theorem operandFields_writeReg_of_busy (w : Word) {s : State} (h : s.seq.muxState ≠ .idle) (r : HostReg) :
    operandFields (writeReg w s r) = operandFields s := by
  cases r with
  | arg => rw [writeReg_arg_of_busy w h]
  | crt i k => rw [writeReg_crt_of_busy w h]
  | _ => rfl

/-! ### The block's turn and the link events -/

theorem operandFields_blockStep (s : State) : operandFields (blockStep s) = operandFields s := by
  rcases blockStep_cases s with ⟨_, h⟩ | ⟨_, _, h⟩ | ⟨_, _, _, h⟩ | ⟨_, _, _, h⟩ <;> rw [h]
  case inr.inr.inr => simp [operandFields]
  all_goals rfl

theorem operandFields_concludeOp (c : Code) (s : State) : operandFields (concludeOp c s) = operandFields s := by
  rcases concludeOp_cases c s with ⟨_, h⟩ | ⟨_, h⟩ <;> rw [h] <;> rfl

theorem operandFields_uniResult (res : ReasmResult) (s : State) :
    operandFields (uniResult res s) = operandFields s := by
  cases res with
  | pending => rfl
  | complete r => exact operandFields_concludeOp .ok (storeResponse r s)
  | inconsistent => exact operandFields_concludeOp _ (storeFailure .fragmentInconsistent s)
  | overflow => exact operandFields_concludeOp _ (storeFailure .reasmOverflow s)

/-- The gather writes the device table, not the channel request table (R124 to R126). -/
theorem operandFields_gatherResult (res : ReasmResult) (s : State) :
    operandFields (gatherResult res s) = operandFields s := by
  cases res with
  | complete r =>
    rw [gatherResult, gatherResponse]
    split
    · rcases gatherInsert_cases r.src (payloadSerial r.payload) (payloadTag r.payload) s with
        ⟨_, _, h⟩ | ⟨_, _, h⟩ | ⟨_, _, h⟩ <;> rw [h] <;> rfl
    · rfl
  | pending | inconsistent | overflow => rfl

theorem operandFields_deliver (f : Frame) (s : State) : operandFields (deliver f s) = operandFields s := by
  rcases deliver_cases f s with ⟨_, h⟩ | ⟨_, h⟩ | ⟨_, _, h⟩ <;> rw [h]
  · exact operandFields_uniResult _ (reasmState f s)
  · exact operandFields_gatherResult _ (reasmState f s)
  · rfl

theorem operandFields_rxTimeout (s : State) : operandFields (doRxTimeout s) = operandFields s := by
  rcases doRxTimeout_cases s with ⟨_, _, h⟩ | ⟨_, _, _, h⟩ | ⟨_, _, _, h⟩ | ⟨_, h⟩ <;> rw [h]
  case inl => exact operandFields_concludeOp _ (storeFailure .noResponse s)
  all_goals rfl

theorem operandFields_linkError (s : State) : operandFields (doLinkError s) = operandFields s := by
  rcases doLinkError_cases s with ⟨_, h⟩ | ⟨_, h⟩ <;> rw [h] <;> rfl

/-! ### Every step of a busy block -/

theorem operandFields_of_eventCases {s t : State} {e : Event} {rest : List Event} (hinputs : s.env.inputs = e :: rest)
    (hbusy : s.seq.muxState ≠ .idle) (hreset : stepResets s = false) (h : EventCases (setInputs rest s) t e) :
    operandFields t = operandFields s := by
  cases e with
  | hostRead off => obtain rfl := h; rfl
  | hostWrite off w =>
    rcases h with ⟨hcmd, hexec⟩ | ⟨_, rfl⟩
    · have hcmd : regAt s.params off = .cmd := hcmd
      have hother : decodeCommand w ≠ .reset := by simpa [stepResets, hinputs, hcmd] using hreset
      exact operandFields_of_busy_command (s := setInputs rest s) hbusy hother hexec
    · exact operandFields_writeReg_of_busy w (s := setInputs rest s) hbusy _
  | reset => simp [stepResets, hinputs] at hreset
  | blockStep => obtain rfl := h; exact operandFields_blockStep _
  | rxByte b => obtain rfl := h; rfl
  | rxQuiet =>
    rcases h with ⟨_, rfl⟩ | ⟨err, _, _, rfl⟩ | ⟨f, _, _, rfl⟩
    · rfl
    · cases err <;> rfl
    · exact operandFields_deliver f (closeBuffer _)
  | rxTimeout => obtain rfl := h; exact operandFields_rxTimeout _
  | settleElapsed =>
    rcases h with ⟨_, rfl⟩ | ⟨_, rfl⟩
    · rfl
    · exact operandFields_pollSlot _ _
  | linkError => obtain rfl := h; exact operandFields_linkError _

/-- Settles O58: the block's turn and each event of a busy block leave `operandFields` alone. -/
theorem operandsStandWhileBusy : Obligations.OperandsStandWhileBusy := by
  unfold Obligations.OperandsStandWhileBusy
  intro s t hbusy hreset hstep
  have hfields : operandFields t = operandFields s := by
    rcases step_cases hstep with ⟨_, rfl⟩ | ⟨e, rest, hinputs, hevent⟩
    · exact operandFields_blockStep s
    · exact operandFields_of_eventCases hinputs hbusy hreset hevent
  exact Prod.mk.inj hfields

end Sys2Proof.Machine
end

section
/-! SUPPORT. `Decode` over the layout of a frame (40_frame_codec R72), the converse of `frameBody_of_decodeFrame_ok`;
with it O4. -/

namespace Sys2Proof.Machine

/-! ### The parts of a body -/

@[simp] theorem bodyBytes_length (f : Frame) : (bodyBytes f).length = 14 + f.payload.length := by
  simp [bodyBytes]
  omega

/-- The header fields at their places (30_encoding R52). -/
theorem header_of_bodyBytes (f : Frame) :
    le16 ((bodyBytes f).getD 4 0) ((bodyBytes f).getD 5 0) = f.src ∧
      le16 ((bodyBytes f).getD 6 0) ((bodyBytes f).getD 7 0) = f.dst ∧ (bodyBytes f).getD 8 0 = f.ctl ∧
      (bodyBytes f).getD 9 0 = f.pkt ∧ (bodyBytes f).getD 10 0 = f.cmd :=
  ⟨le16_lo8_hi8 f.src, le16_lo8_hi8 f.dst, rfl, rfl, rfl⟩

/-- The bytes a checksum covers (30_encoding R56). -/
theorem covered_of_bodyBytes (f : Frame) :
    ((bodyBytes f).drop 4).take (7 + f.payload.length) = headerBytes f.src f.dst f.ctl f.pkt f.cmd ++ f.payload := by
  rw [bodyBytes, List.append_assoc, List.drop_left' (by rfl), List.take_left' (by simp)]

/-- The payload follows the header (30_encoding R52). -/
theorem payload_of_bodyBytes (f : Frame) : ((bodyBytes f).drop 11).take f.payload.length = f.payload := by
  rw [bodyBytes, List.append_assoc, List.append_assoc, ← List.append_assoc, List.drop_left' (by rfl),
    List.take_left' rfl]

/-- The trailer follows the payload (30_encoding R52). -/
theorem trailer_of_bodyBytes (f : Frame) (k : Nat) :
    (bodyBytes f).getD (11 + k + f.payload.length) 0 = (trailerBytes f.crc).getD k 0 := by
  have hfront : ([0x68, BitVec.ofNat 8 f.payload.length, BitVec.ofNat 8 f.payload.length, 0x68]
      ++ (headerBytes f.src f.dst f.ctl f.pkt f.cmd ++ f.payload)).length = 11 + f.payload.length := by
    simp
    omega
  rw [bodyBytes, List.getD_append_right _ _ _ _ (by omega), hfront]
  congr 1
  omega

/-! ### Good buffers -/

/-- A buffer whose body is the layout of a frame with the right sum passes every test of R72. -/
theorem decodeFrame_of_frameBody {buf : List Byte} {f : Frame} (hlength : f.payload.length ≤ 255)
    (hcrc : f.crc = checksum (headerBytes f.src f.dst f.ctl f.pkt f.cmd ++ f.payload))
    (hbody : frameBody buf = bodyBytes f) : decodeFrame buf = .ok f := by
  have hn : ((bodyBytes f).getD 1 0).toNat = f.payload.length := lengthByte_toNat hlength
  have hlo : (bodyBytes f).getD (11 + f.payload.length) 0 = lo8 f.crc := trailer_of_bodyBytes f 0
  have hhi : (bodyBytes f).getD (12 + f.payload.length) 0 = hi8 f.crc := trailer_of_bodyBytes f 1
  have hend : (bodyBytes f).getD (13 + f.payload.length) 0 = 0x16 := trailer_of_bodyBytes f 2
  have hsum : checksum (((bodyBytes f).drop 4).take (7 + f.payload.length)) = f.crc := by
    rw [covered_of_bodyBytes, hcrc]
  have hmarks : (bodyBytes f).getD 0 0 = 0x68 ∧ (bodyBytes f).getD 3 0 = 0x68 := ⟨rfl, rfl⟩
  have hlens : (bodyBytes f).getD 1 0 = (bodyBytes f).getD 2 0 := rfl
  obtain ⟨hsrc, hdst, hctl, hpkt, hcmd⟩ := header_of_bodyBytes f
  simp only [decodeFrame, hbody, hn, hlo, hhi, hend, hsum, ← hlens, hmarks, hsrc, hdst, hctl, hpkt, hcmd,
    payload_of_bodyBytes, bodyBytes_length, le16_lo8_hi8]
  rw [if_neg (by omega)]
  simp

/-- A frame with the right sum is its body behind the wake bytes (30_encoding R52, R56). -/
theorem frameBytes_eq_wake_bodyBytes {f : Frame}
    (hcrc : f.crc = checksum (headerBytes f.src f.dst f.ctl f.pkt f.cmd ++ f.payload)) :
    frameBytes f.src f.dst f.ctl f.pkt f.cmd f.payload = [0xAA, 0xAA] ++ bodyBytes f := by
  simp [frameBytes, bodyBytes, hcrc]

/-- The wake bytes are the body's optional prefix (R72, R73): a body begins with the start marker, not with them. -/
theorem frameBody_eq_bodyBytes_iff {buf : List Byte} {f : Frame} :
    frameBody buf = bodyBytes f ↔ buf = [0xAA, 0xAA] ++ bodyBytes f ∨ buf = bodyBytes f := by
  constructor
  · exact fun h => (buffer_of_frameBody h).symm
  · rintro (rfl | rfl) <;> rfl

/-- Settles O4: the verdict is `Ok` exactly for the bodies of the layout, and `frameBytes` is the body behind the wake
bytes. -/
theorem goodBuffersAreTheFrameLayout : Obligations.GoodBuffersAreTheFrameLayout := by
  unfold Obligations.GoodBuffersAreTheFrameLayout
  intro buf f
  constructor
  · intro h
    obtain ⟨hbody, hlength, hcrc⟩ := frameBody_of_decodeFrame_ok h
    rw [frameBytes_eq_wake_bodyBytes hcrc]
    exact ⟨hlength, hcrc, frameBody_eq_bodyBytes_iff.mp hbody⟩
  · rintro ⟨hlength, hcrc, hbuf⟩
    rw [frameBytes_eq_wake_bodyBytes hcrc] at hbuf
    exact decodeFrame_of_frameBody hlength hcrc (frameBody_eq_bodyBytes_iff.mpr hbuf)

end Sys2Proof.Machine
end

section
/-! SUPPORT. The rows of the opcode table against their encodings, port by port (30_encoding R59, R61, 42_multiplexer
R102 to R106); with it O1, O2, O6 and O7. -/

namespace Sys2Proof.Machine

/-! ### The CMD word -/

/-- The host operation of a word depends on its low four bits alone (R61). -/
theorem decodeCommand_and_mask (w : Word) : decodeCommand (w &&& 0xF) = decodeCommand w := by
  have hnibble : (w &&& 0xF).extractLsb' 0 4 = w.extractLsb' 0 4 := by
    apply BitVec.eq_of_toNat_eq
    have hmask : w.toNat &&& 15 = w.toNat % 2 ^ 4 := Nat.and_two_pow_sub_one_eq_mod w.toNat 4
    simp [hmask]
  rw [decodeCommand, hnibble, decodeCommand]

/-- The word an operation code is encoded as selects that code's operation (R61, R62). -/
theorem decode_commandBytes (op : Word) :
    decode (commandBytes op).1 (commandBytes op).2 = .instr (decodeCommand op) := decode_hostCommand_le32Bytes op

/-- Settles O6: only the nibble is read, and the sixteen codes are evaluated. -/
theorem commandWordSelectsByItsLowNibble : Obligations.CommandWordSelectsByItsLowNibble := by
  unfold Obligations.CommandWordSelectsByItsLowNibble
  refine ⟨fun w => ?_, rfl⟩
  rw [decode_hostCommand_le32Bytes, decodeCommand_and_mask]

/-! ### Frames -/

/-- The bytes of a receive row's frame have that frame as their verdict (R66, R72). -/
theorem decodeFrame_bytes (cmd : Byte) {f : RxFields} (h : f.wellFormed = true) :
    decodeFrame (f.bytes cmd) = .ok (f.frame cmd) :=
  (goodBuffersAreTheFrameLayout _ _).mpr ⟨of_decide_eq_true h, rfl, .inl rfl⟩

/-- A received frame is read by its command byte (R59). -/
theorem decode_receive_bytes {cmd : Byte} {f : RxFields} {i : Instr} (h : f.wellFormed = true)
    (hrow : receivedRow (f.frame cmd) = some i) : decode .receive (f.bytes cmd) = .instr i := by
  simp only [decode, decodeReceived, decodeFrame_bytes cmd h, hrow]

/-- The block's own frames are read by the table of its requests (R102). -/
theorem decode_transmit_bytes {cmd : Byte} {f : RxFields} {i : Instr} (h : f.wellFormed = true)
    (hrow : requestRow (f.frame cmd) = some i) : decode .transmit (f.bytes cmd) = .instr i := by
  simp only [decode, decodeTransmitted, decodeFrame_bytes cmd h, hrow]
  rw [RxFields.bytes, hasWake_frameBytes, if_pos rfl]

/-- The fields of a request: the controller's source address and packet counter are 0 (R67, R103 to R106). -/
def requestFields (dst : Half) (ctl : Byte) (payload : List Byte) : RxFields :=
  { src := 0, dst := dst, ctl := ctl, pkt := 0, payload := payload }

/-- A request's bytes decode to the row that `requestRow` gives its fields (R66, R102). -/
theorem decode_transmit_encodeFrame {dst : Half} {cmd ctl : Byte} {payload : List Byte} {i : Instr}
    (h : payload.length ≤ 255) (hrow : requestRow ((requestFields dst ctl payload).frame cmd) = some i) :
    decode .transmit (encodeFrame dst 0 cmd ctl payload) = .instr i :=
  decode_transmit_bytes (f := requestFields dst ctl payload) (decide_eq_true h) hrow

/-- Settles O1: a host operation by its code, a request by `requestRow`, a received frame by its command byte. -/
theorem decodeInvertsEncode : Obligations.DecodeInvertsEncode := by
  unfold Obligations.DecodeInvertsEncode
  intro i hwf
  cases i with
  | txGetNetStart => exact decode_transmit_encodeFrame (Nat.zero_le _) rfl
  | txGetCinfo dst => exact decode_transmit_encodeFrame (Nat.zero_le _) rfl
  | txSynOnline t =>
    have hrow : requestRow ((requestFields 0 128 (le32Bytes t)).frame 10) = some (.txSynOnline t) :=
      congrArg (fun w => some (Instr.txSynOnline w)) (le32_of_le32Bytes t)
    exact decode_transmit_encodeFrame (Nat.le_of_ble_eq_true rfl) hrow
  | txGetData dst type1 type2 index => exact decode_transmit_encodeFrame (Nat.le_of_ble_eq_true rfl) rfl
  | rxGetNetStart f => exact decode_receive_bytes hwf rfl
  | rxGetCinfo f => exact decode_receive_bytes hwf rfl
  | rxGetData f => exact decode_receive_bytes hwf rfl
  | cmdSetData f => exact decode_receive_bytes hwf rfl
  | cmdPdelimit f => exact decode_receive_bytes hwf rfl
  | _ => exact decode_commandBytes _

/-- A frame the transmit side has a row for is the request that row is encoded as (R103 to R106). -/
theorem encode_of_requestRow {f : Frame} {i : Instr} (h : requestRow f = some i) :
    encode i = (.transmit, frameBytes f.src f.dst f.ctl f.pkt f.cmd f.payload) := by
  obtain ⟨src, dst, ctl, pkt, cmd, payload, crc⟩ := f
  unfold requestRow at h
  dsimp only at h ⊢
  split at h
  · exact absurd h nofun
  · rename_i hzero
    obtain ⟨rfl, rfl⟩ : src = 0 ∧ pkt = 0 := by simpa using hzero
    split at h
    · split_ifs at h with hnet hcinfo
      · obtain ⟨rfl, rfl, rfl⟩ := hnet
        obtain rfl := Option.some.inj h
        rfl
      · obtain ⟨rfl, rfl⟩ := hcinfo
        obtain rfl := Option.some.inj h
        rfl
    · split_ifs at h with hdata
      obtain ⟨rfl, rfl⟩ := hdata
      obtain rfl := Option.some.inj h
      rfl
    · split_ifs at h with hsyn
      obtain ⟨rfl, rfl, rfl⟩ := hsyn
      obtain rfl := Option.some.inj h
      rw [encode, le32Bytes_le32]
      rfl
    · exact absurd h nofun

/-- Bytes that decode at the transmit side begin with the wake bytes and hold a request (R54, R102). -/
theorem decode_transmit_instr {buf : List Byte} {i : Instr} (h : decode .transmit buf = .instr i) :
    hasWake buf = true ∧ ∃ f, decodeFrame buf = .ok f ∧ requestRow f = some i := by
  rw [decode, decodeTransmitted] at h
  split at h
  · rename_i hwake
    split at h
    · exact absurd h nofun
    · rename_i f hok
      split at h
      · rename_i j hrow
        obtain rfl := Decoded.instr.inj h
        exact ⟨hwake, f, hok, hrow⟩
      · exact absurd h nofun
  · exact absurd h nofun

/-- Settles O2: of the two layouts of a good buffer the wake bytes single out one, which its request is encoded as. -/
theorem encodeInvertsTransmitDecode : Obligations.EncodeInvertsTransmitDecode := by
  unfold Obligations.EncodeInvertsTransmitDecode
  intro bytes i h
  obtain ⟨hwake, f, hok, hrow⟩ := decode_transmit_instr h
  obtain ⟨_, _, hbytes | hbytes⟩ := (goodBuffersAreTheFrameLayout bytes f).mp hok
  · rw [encode_of_requestRow hrow, hbytes]
  · simp [hbytes, frameBytes, hasWake] at hwake

/-- Settles O7: what is written as `encode` gives it decodes by O1, the rest is evaluated. -/
theorem writtenOutBytesAreTheEncodings : Obligations.WrittenOutBytesAreTheEncodings := by
  unfold Obligations.WrittenOutBytesAreTheEncodings
  refine ⟨rfl, decodeInvertsEncode .txGetNetStart rfl, decodeInvertsEncode (.txGetData 0x1234 0x01 0x10 0x03) rfl,
    by decide, decodeInvertsEncode (.rxGetNetStart ⟨0x0042, 0, 0x40, 0, []⟩) rfl, rfl, rfl, rfl, rfl⟩

end Sys2Proof.Machine
end

section
/-! SUPPORT. What the delivery of a fragment comes to (42_multiplexer R120 to R123); with it O39, O40 and O42. -/

namespace Sys2Proof.Machine

/-! ### Unawaited frames -/

/-- A frame that no transaction awaits (R120). -/
theorem deliver_of_unawaited (f : Frame) {s : State} (huni : s.seq.muxState ≠ .awaitUni)
    (hgather : s.seq.muxState ≠ .awaitGather) : deliver f s = countUnsolicited s := by
  rcases deliver_cases f s with ⟨h, _⟩ | ⟨h, _⟩ | ⟨_, _, h⟩
  · exact absurd h huni
  · exact absurd h hgather
  · exact h

/-- The five receive rows have the one meaning `receiveRow`, each with its command byte (30_encoding R59; log 5). -/
theorem exec_eq_receiveRow {row : (RxFields → Instr) × Byte} (h : row ∈ receiveRows) (f : RxFields) (s : State) :
    exec (row.1 f) s = receiveRow row.2 f s := by
  simp only [receiveRows, List.mem_cons, List.not_mem_nil, or_false] at h
  rcases h with rfl | rfl | rfl | rfl | rfl <;> rfl

/-- A receive row with a payload that no frame holds stops (30_encoding R53; log 10). -/
theorem exec_receiveRow_tooLong {row : (RxFields → Instr) × Byte} (h : row ∈ receiveRows) {f : RxFields}
    (hf : f.wellFormed = false) (s : State) : exec (row.1 f) s = .fault .payloadTooLong :=
  (exec_eq_receiveRow h f s).trans (if_neg (of_decide_eq_false hf))

/-- Settles O42: none of the four states is an await, and the payload bound is `receiveRow`'s. -/
theorem unawaitedFrameIsCounted : Obligations.UnawaitedFrameIsCounted := by
  unfold Obligations.UnawaitedFrameIsCounted
  refine fun row hrow f s => ⟨fun hf hmux => ?_, fun hf => exec_receiveRow_tooLong hrow hf s⟩
  have hawait : s.seq.muxState ≠ .awaitUni ∧ s.seq.muxState ≠ .awaitGather := by
    rcases hmux with h | h | h | h <;> simp [h]
  rw [exec_receiveRow hrow hf, deliver_of_unawaited _ hawait.1 hawait.2]
  rfl

/-! ### The last fragment -/

/-- The fragment with packet counter zero completes the response, in either await, and empties the accumulator
(41_reassembler R94). -/
theorem reasmStep_takes_last {capacity : Nat} {cmd : Byte} {f : RxFields} {a : Accumulator} (h255 : 255 ≤ capacity)
    (h4096 : capacity ≤ 4096) (hf : f.wellFormed = true) (ht : TakesFragment capacity cmd f a)
    (hw : Memory.wf a.buf = true) (hpkt : f.pkt = 0) :
    ∃ b : Accumulator, reasmStep capacity (f.frame cmd) a = (b, .complete (joinedResponse cmd f a)) ∧
      b.valid = false ∧ (joinedResponse cmd f a).payload.length ≤ capacity := by
  obtain ⟨b, hstep, hvalid, hsrc, hdst, hctl, hcmd, hbpkt, hpayload, hlength, _⟩ :=
    reasmStep_takes h255 h4096 hf ht hw
  have hresponse : accResponse b = joinedResponse cmd f a := by
    rw [accResponse, joinedResponse, ← accPayload_of_valid hvalid, hsrc, hdst, hctl, hcmd, hpayload]
  have hfinish : reasmFinish b = ({ b with valid := false }, .complete (accResponse b)) := if_pos (hbpkt.trans hpkt)
  refine ⟨{ b with valid := false }, by rw [hstep, hfinish, hresponse], rfl, ?_⟩
  rw [joinedResponse, ← hpayload]
  exact hlength

/-- In the unicast await the last fragment's row concludes the transaction with the whole response (R121). -/
theorem exec_last_fragment {row : (RxFields → Instr) × Byte} (hrow : row ∈ receiveRows) {f : RxFields} {s : State}
    (hf : f.wellFormed = true) (hmux : s.seq.muxState = .awaitUni)
    (ht : TakesFragment s.params.reasmMax row.2 f s.acc) (hpkt : f.pkt = 0) (hw : Memory.wf s.acc.buf = true) :
    ∃ b : Accumulator, exec (row.1 f) s = .next (concludeOk (joinedResponse row.2 f s.acc) { s with acc := b }) ∧
      (joinedResponse row.2 f s.acc).payload.length ≤ 4096 := by
  obtain ⟨h255, h4096⟩ := reasmMax_bounds s.params
  obtain ⟨b, hstep, _, hlength⟩ := reasmStep_takes_last h255 h4096 hf ht hw hpkt
  refine ⟨b, ?_, hlength.trans h4096⟩
  rw [exec_receiveRow hrow hf, deliver, hmux]
  simp only [reasmAnswer, reasmState, hstep, uniResult]

/-- `storeResponse` shows the response it is given, whatever `dev` and `slot` are set to after it (R123). -/
theorem holdsResponse_storeResponse {r : Response} {s : State} (hlength : r.payload.length ≤ 4096)
    (hw : Memory.wf s.resp.buf = true) (dev : BitVec 4) (slot : BitVec 3) :
    HoldsResponse r dev slot s.resp { (storeResponse r s).resp with dev := dev, slot := slot } where
  valid := rfl
  code := rfl
  dev := rfl
  slot := rfl
  src := rfl
  dst := rfl
  ctl := rfl
  cmd := rfl
  len := by
    change (BitVec.ofNat 13 r.payload.length).toNat = _
    rw [BitVec.toNat_ofNat]
    omega
  payload := Memory.readBytes_writeBytes hw 0 r.payload
  rest a ha := Memory.read_writeBytes_outside _ _ _ (.inr (by rwa [Nat.zero_add]))

/-- ENUMERATE completes with OK (R108, R123). -/
theorem concludeOk_of_enumerate (r : Response) {s : State} (h : s.seq.curOp = .enumerate) :
    concludeOk r s = { s with
      seq := { s.seq with muxState := .idle, curOp := .none, abortPending := false }
      acc := { s.acc with valid := false }
      resp := { (storeResponse r s).resp with dev := s.seq.enumD, slot := 0 }
      ctl := { s.ctl with done := true, err := 0 } } := by
  rcases concludeOp_cases .ok (storeResponse r s) with ⟨_, hend⟩ | ⟨hne, _⟩
  · exact hend
  · exact absurd h hne

/-- A POLL result is held for the host with its slot (R123). -/
theorem concludeOk_of_poll (r : Response) {s : State} (h : s.seq.curOp = .poll) :
    concludeOk r s = { s with
      seq := { s.seq with muxState := .hold }
      acc := { s.acc with valid := false }
      resp := { (storeResponse r s).resp with dev := s.seq.pollD.extractLsb' 0 4, slot := s.seq.pollK } } := by
  have hdev : s.seq.pollD.setWidth 4 = s.seq.pollD.extractLsb' 0 4 := BitVec.eq_of_toNat_eq rfl
  rcases concludeOp_cases .ok (storeResponse r s) with ⟨heq, _⟩ | ⟨_, hend⟩
  · exact absurd (h.symm.trans heq) nofun
  · rw [← hdev]
    exact hend

/-- Settles O39: `exec_last_fragment`, then the end of `conclude` for ENUMERATE (R123). -/
theorem lastFragmentCompletesEnumerate : Obligations.LastFragmentCompletesEnumerate := by
  unfold Obligations.LastFragmentCompletesEnumerate
  intro row hrow f s hf hmux hop ht hpkt hacc hresp
  obtain ⟨b, hexec, hlength⟩ := exec_last_fragment hrow hf hmux ht hpkt hacc
  rw [concludeOk_of_enumerate (s := { s with acc := b }) _ hop] at hexec
  exact ⟨_, hexec, holdsResponse_storeResponse hlength hresp s.seq.enumD 0, rfl, rfl⟩

/-- Settles O40: `exec_last_fragment`, then the end of `conclude` for POLL (R123). -/
theorem lastFragmentIsHeldForPoll : Obligations.LastFragmentIsHeldForPoll := by
  unfold Obligations.LastFragmentIsHeldForPoll
  intro row hrow f s hf hmux hop ht hpkt hacc hresp
  obtain ⟨b, hexec, hlength⟩ := exec_last_fragment hrow hf hmux ht hpkt hacc
  rw [concludeOk_of_poll (s := { s with acc := b }) _ hop] at hexec
  exact ⟨_, hexec, holdsResponse_storeResponse hlength hresp _ s.seq.pollK, rfl, rfl⟩

end Sys2Proof.Machine
end

section
/-! SUPPORT. The encoder and the checksum as the host sees them (40_frame_codec R68, R69); with it O3 and O5. -/

namespace Sys2Proof.Machine

/-- Both length bytes of a frame hold its payload's length (30_encoding R53). -/
theorem lengthBytes_of_frameBytes (src dst : Half) (ctl pkt cmd : Byte) (payload : List Byte) :
    (frameBytes src dst ctl pkt cmd payload).getD 3 0 = BitVec.ofNat 8 payload.length ∧
      (frameBytes src dst ctl pkt cmd payload).getD 4 0 = BitVec.ofNat 8 payload.length := ⟨rfl, rfl⟩

/-- Settles O3: an encoded frame is the layout of a frame with source address 0, so O4 gives its verdict. -/
theorem encodedFrameDecodesToItsOperands : Obligations.EncodedFrameDecodesToItsOperands := by
  unfold Obligations.EncodedFrameDecodesToItsOperands
  intro dst pkt cmd ctl payload hlength
  obtain ⟨hlen1, hlen2⟩ := lengthBytes_of_frameBytes 0 dst ctl pkt cmd payload
  exact ⟨hlen1, hlen2, encodeFrame_length dst pkt cmd ctl payload,
    (goodBuffersAreTheFrameLayout _ _).mpr ⟨hlength, rfl, .inl rfl⟩⟩

theorem addByte_toNat (sum : Half) (b : Byte) : (addByte sum b).toNat = (sum.toNat + b.toNat) % 65536 := by
  have := b.isLt
  simp only [addByte, BitVec.toNat_add, BitVec.toNat_setWidth]
  omega

/-- Adding bytes one at a time adds their sum, modulo 2^16 at the end alone (R69, R70). -/
theorem foldl_addByte_toNat (bytes : List Byte) (sum : Half) :
    (bytes.foldl addByte sum).toNat = (sum.toNat + (bytes.map BitVec.toNat).sum) % 65536 := by
  induction bytes generalizing sum with
  | nil => exact (Nat.mod_eq_of_lt sum.isLt).symm
  | cons b bs ih =>
    rw [List.foldl_cons, ih, addByte_toNat, List.map_cons, List.sum_cons, Nat.mod_add_mod, Nat.add_assoc]

theorem checksum_toNat (bytes : List Byte) : (checksum bytes).toNat = (bytes.map BitVec.toNat).sum % 65536 := by
  rw [checksum, foldl_addByte_toNat]
  simp

/-- Settles O5: `checksum_toNat`; the corner values are evaluated, the 262 equal bytes of the largest sum as a
product. -/
theorem checksumIsTheByteSumMod65536 : Obligations.ChecksumIsTheByteSumMod65536 := by
  unfold Obligations.ChecksumIsTheByteSumMod65536
  refine ⟨checksum_toNat, fun crc => ⟨rfl, rfl⟩, rfl, ?_, rfl⟩
  apply BitVec.eq_of_toNat_eq
  rw [checksum_toNat, List.map_replicate, List.sum_replicate]
  rfl

end Sys2Proof.Machine
end
section
/-! SUPPORT. `Decode` and the parser over any buffer (40_frame_codec R72, R90): both give a buffer of the regular
structure the same verdict, and any other buffer is malformed to both; with it O8. -/

namespace Sys2Proof.Machine

/-! ### The second length byte -/

/-- A body with another second length byte, the one byte of the regular structure that no other byte determines and that
no field of the frame holds (R72, R74). -/
def setL2 (body : List Byte) (l2 : Byte) : List Byte := body.set 2 l2

@[simp] theorem setL2_length (body : List Byte) (l2 : Byte) : (setL2 body l2).length = body.length :=
  List.length_set

theorem setL2_getD (body : List Byte) (l2 : Byte) {i : Nat} (h : 2 ≠ i) :
    (setL2 body l2).getD i 0 = body.getD i 0 := by
  simp [setL2, List.getD_eq_getElem?_getD, List.getElem?_set_ne h]

theorem setL2_getD_two {body : List Byte} (h : 2 < body.length) (l2 : Byte) : (setL2 body l2).getD 2 0 = l2 := by
  simp [setL2, List.getD_eq_getElem?_getD, h]

theorem setL2_drop (body : List Byte) (l2 : Byte) {i : Nat} (h : 2 < i) : (setL2 body l2).drop i = body.drop i :=
  List.drop_set_of_lt h

/-- The old byte put back. -/
theorem setL2_setL2_getD {body : List Byte} (h : 2 < body.length) (l2 : Byte) :
    setL2 (setL2 body l2) (body.getD 2 0) = body := by
  rw [setL2, setL2, List.set_set, List.getD_eq_getElem _ _ h, List.set_getElem_self]

/-! ### The regular structure -/

/-- What `Decode` asks of a body before it compares length bytes and sums: the regular structure of R72. -/
structure RegularStructure (body : List Byte) : Prop where
  start : body.getD 0 0 = 0x68
  restart : body.getD 3 0 = 0x68
  length : body.length = 14 + (body.getD 1 0).toNat
  endMark : body.getD (13 + (body.getD 1 0).toNat) 0 = 0x16

/-- The structure asks nothing of the second length byte. -/
theorem RegularStructure.setL2_body {body : List Byte} (h : RegularStructure body) (l2 : Byte) :
    RegularStructure (setL2 body l2) := by
  have hl1 : (setL2 body l2).getD 1 0 = body.getD 1 0 := setL2_getD body l2 (by omega)
  refine ⟨(setL2_getD body l2 (by omega)).trans h.start, (setL2_getD body l2 (by omega)).trans h.restart, ?_, ?_⟩
  · rw [setL2_length, hl1, h.length]
  · rw [hl1, setL2_getD body l2 (by omega), h.endMark]

/-- With equal length bytes the structure is the layout of a frame (30_encoding R52). -/
theorem RegularStructure.exists_eq_bodyBytes {body : List Byte} (h : RegularStructure body)
    (hequal : body.getD 2 0 = body.getD 1 0) :
    ∃ f : Frame, f.payload.length ≤ 255 ∧ body = bodyBytes f := by
  obtain ⟨hstart, hrestart, hlength, hend⟩ := h
  have hlayout := body_eq_layout rfl hstart hrestart hlength hend hequal
  have hn : (body.getD 1 0).toNat ≤ 255 := Nat.le_of_lt_succ (body.getD 1 0).isLt
  generalize (body.getD 1 0).toNat = n at hlength hlayout hn
  have hpayload : ((body.drop 11).take n).length = n := by
    rw [List.length_take, List.length_drop]
    omega
  refine ⟨{ src := le16 (body.getD 4 0) (body.getD 5 0), dst := le16 (body.getD 6 0) (body.getD 7 0)
            ctl := body.getD 8 0, pkt := body.getD 9 0, cmd := body.getD 10 0
            payload := (body.drop 11).take n
            crc := le16 (body.getD (11 + n) 0) (body.getD (12 + n) 0) }, hpayload.trans_le hn, ?_⟩
  rw [bodyBytes, hpayload]
  exact hlayout

/-- A buffer of the regular structure, taken apart: its body is the layout of `f` but for the second length byte. -/
structure IsRegular (buf : List Byte) (l2 : Byte) (f : Frame) : Prop where
  length : f.payload.length ≤ 255
  body : frameBody buf = setL2 (bodyBytes f) l2

/-- The verdict over the regular structure: the length bytes are compared before the sum (R74). -/
def regularVerdict (l2 : Byte) (f : Frame) : Verdict :=
  if BitVec.ofNat 8 f.payload.length ≠ l2 then .bad .lengthMismatch
  else if checksum (headerBytes f.src f.dst f.ctl f.pkt f.cmd ++ f.payload) ≠ f.crc then .bad .checksum
  else .ok f

/-! ### The decoder over the regular structure -/

theorem decodeFrame_of_regular {buf : List Byte} {l2 : Byte} {f : Frame} (h : IsRegular buf l2 f) :
    decodeFrame buf = regularVerdict l2 f := by
  obtain ⟨hlength, hbody⟩ := h
  have hl1 : (setL2 (bodyBytes f) l2).getD 1 0 = BitVec.ofNat 8 f.payload.length := rfl
  have hl2 : (setL2 (bodyBytes f) l2).getD 2 0 = l2 := rfl
  have hmarks : (bodyBytes f).getD 0 0 = 0x68 ∧ (bodyBytes f).getD 3 0 = 0x68 := ⟨rfl, rfl⟩
  have hlo : (bodyBytes f).getD (11 + f.payload.length) 0 = lo8 f.crc := trailer_of_bodyBytes f 0
  have hhi : (bodyBytes f).getD (12 + f.payload.length) 0 = hi8 f.crc := trailer_of_bodyBytes f 1
  have hend : (bodyBytes f).getD (13 + f.payload.length) 0 = 0x16 := trailer_of_bodyBytes f 2
  obtain ⟨hsrc, hdst, hctl, hpkt, hcmd⟩ := header_of_bodyBytes f
  simp (disch := omega) only [decodeFrame, hbody, setL2_length, bodyBytes_length, hl1, hl2, lengthByte_toNat hlength,
    setL2_getD, setL2_drop, hmarks, hlo, hhi, hend, le16_lo8_hi8, covered_of_bodyBytes, payload_of_bodyBytes, hsrc,
    hdst, hctl, hpkt, hcmd]
  rw [if_neg (by omega)]
  simp [regularVerdict]

/-- A buffer that `Decode` does not call malformed has passed the tests of the regular structure (R72, R74). -/
theorem regularStructure_of_decodeFrame {buf : List Byte} (h : decodeFrame buf ≠ .bad .malformed) :
    RegularStructure (frameBody buf) := by
  constructor <;> by_contra hfails <;> refine h ?_
  all_goals simp only [decodeFrame, ne_eq, hfails, not_false_eq_true, true_or, or_true, ↓reduceIte, ite_self]

/-- With the second length byte made equal to the first, such a buffer's body is a frame's layout. -/
theorem isRegular_of_decodeFrame {buf : List Byte} (h : decodeFrame buf ≠ .bad .malformed) :
    ∃ l2 f, IsRegular buf l2 f := by
  have hregular := regularStructure_of_decodeFrame h
  have hlong : 2 < (frameBody buf).length := by
    rw [hregular.length]
    omega
  have hl1 := setL2_getD (frameBody buf) ((frameBody buf).getD 1 0) (i := 1) (by omega)
  obtain ⟨f, hlength, hlayout⟩ := (hregular.setL2_body ((frameBody buf).getD 1 0)).exists_eq_bodyBytes
    ((setL2_getD_two hlong _).trans hl1.symm)
  refine ⟨(frameBody buf).getD 2 0, f, hlength, ?_⟩
  rw [← hlayout, setL2_setL2_getD hlong]

/-! ### The parser over the regular structure -/

/-- The parser after a buffer of the regular structure (R79, R80, R88). -/
def afterRegular (r : Receiver) (l2 : Byte) (f : Frame) : Receiver :=
  { afterFrame r f with l2 := l2, lenmis := l2 != BitVec.ofNat 8 f.payload.length }

/-- `parseBytes_header` for any second length byte, which goes to `rx_L2` and `rx_lenmis` alone (R80). -/
theorem parseBytes_header_setL2 (r : Receiver) (l2 : Byte) (f : Frame) :
    parseBytes (afterStart r) ([BitVec.ofNat 8 f.payload.length, l2, 0x68]
      ++ headerBytes f.src f.dst f.ctl f.pkt f.cmd) =
      { afterHeader r f with l2 := l2, lenmis := l2 != BitVec.ofNat 8 f.payload.length } := by
  simp [afterStart, parseByte, expect, headerBytes, afterHeader, checksum]

/-- The bytes of the regular structure in the order the parser takes them. -/
theorem setL2_bodyBytes (f : Frame) (l2 : Byte) : setL2 (bodyBytes f) l2 =
    0x68 :: (([BitVec.ofNat 8 f.payload.length, l2, 0x68] ++ headerBytes f.src f.dst f.ctl f.pkt f.cmd)
      ++ f.payload ++ trailerBytes f.crc) := by
  simp [setL2, bodyBytes]

theorem parseBytes_of_regular {r : Receiver} {buf : List Byte} {l2 : Byte} {f : Frame} (hidle : r.state = .idle)
    (h : IsRegular buf l2 f) : parseBytes r buf = afterRegular r l2 f := by
  have hlen := lengthByte_toNat h.length
  rw [parseBytes_of_frameBody hidle (h.body.trans (setL2_bodyBytes f l2)), parseBytes_append, parseBytes_append,
    parseBytes_header_setL2, parseBytes_payload f.payload (by rfl) hlen hlen.ge, parseBytes_trailer rfl]
  simp [afterRegular, afterFrame, afterHeader, hlen, checksum_append]

theorem parserVerdict_afterRegular {r : Receiver} {l2 : Byte} {f : Frame} (hwf : Memory.wf r.pay = true)
    (hlength : f.payload.length ≤ 255) : parserVerdict (afterRegular r l2 f) = regularVerdict l2 f := by
  have hlen := lengthByte_toNat hlength
  have hframe : receivedFrame (afterRegular r l2 f) = f := by
    simp [receivedFrame, afterRegular, afterFrame, afterHeader, hlen, Memory.readBytes_writeBytes hwf]
  have hdone : (afterRegular r l2 f).state = .done := rfl
  have hlenmis : (afterRegular r l2 f).lenmis = true ↔ BitVec.ofNat 8 f.payload.length ≠ l2 :=
    bne_iff_ne.trans ne_comm
  rw [parserVerdict, if_neg (not_not_intro hdone), hframe]
  exact if_congr hlenmis rfl rfl

/-! ### What the parser finishes -/

/-- The bytes take the parser to the end of a frame, and not past it (R86, R87). -/
def Finishes (r : Receiver) (bytes : List Byte) : Prop := (parseBytes r bytes).state = .done

/-- An error is final (R87). -/
theorem not_finishes_of_err {r : Receiver} (h : r.state = .err) (bytes : List Byte) : ¬ Finishes r bytes := by
  induction bytes with
  | nil =>
    intro hdone
    exact absurd (h.symm.trans hdone) nofun
  | cons b bs ih =>
    have hbyte : parseByte r b = r := by rw [parseByte, h]
    rwa [Finishes, parseBytes_cons, hbyte]

/-- Before the end of a frame another byte is needed. -/
theorem Finishes.uncons {r : Receiver} {bytes : List Byte} (h : Finishes r bytes) (hstate : r.state ≠ .done) :
    ∃ b rest, bytes = b :: rest ∧ Finishes (parseByte r b) rest := by
  cases bytes with
  | nil => exact absurd h hstate
  | cons b rest => exact ⟨b, rest, rfl, h⟩

/-- After the end of a frame any byte is an error (R87). -/
theorem Finishes.eq_nil {r : Receiver} {bytes : List Byte} (h : Finishes r bytes) (hstate : r.state = .done) :
    bytes = [] := by
  cases bytes with
  | nil => rfl
  | cons b rest => exact absurd h (not_finishes_of_err (r := parseByte r b) (by rw [parseByte, hstate]) rest)

/-- A byte that must have one value has it (R77, R78, R81, R86). -/
theorem Finishes.eq_of_expect {r : Receiver} {b want : Byte} {next : RxState} {rest : List Byte}
    (h : Finishes { r with state := expect b want next } rest) : b = want := by
  by_contra hne
  exact not_finishes_of_err (if_neg hne) rest h

/-- The trailer is three bytes, the last one the end marker (R85, R86). -/
theorem Finishes.trailer {r : Receiver} {bytes : List Byte} (h : Finishes r bytes) (hstate : r.state = .crc0) :
    ∃ crc, bytes = trailerBytes crc := by
  obtain ⟨lo, rest, rfl, hlo⟩ := h.uncons (by rw [hstate]; nofun)
  simp only [parseByte, hstate] at hlo
  obtain ⟨hi, rest, rfl, hhi⟩ := hlo.uncons nofun
  obtain ⟨mark, rest, rfl, hmark⟩ := hhi.uncons nofun
  obtain rfl := hmark.eq_of_expect
  obtain rfl := hmark.eq_nil rfl
  exact ⟨le16 lo hi, by simp [trailerBytes]⟩

/-- A payload of the announced length, then the trailer (R83 to R86). -/
theorem Finishes.payload {r : Receiver} {bytes : List Byte} (h : Finishes r bytes)
    (hstate : r.state = if r.cnt = 0 then .crc0 else .pay) :
    ∃ payload crc, bytes = payload ++ trailerBytes crc ∧ payload.length = r.cnt.toNat := by
  induction hn : r.cnt.toNat generalizing r bytes with
  | zero =>
    have hzero : r.cnt = 0 := BitVec.eq_of_toNat_eq hn
    rw [if_pos hzero] at hstate
    obtain ⟨crc, hbytes⟩ := h.trailer hstate
    exact ⟨[], crc, hbytes, rfl⟩
  | succ n ih =>
    have hpay : r.state = .pay := by
      rw [hstate, if_neg]
      intro hzero
      simp [hzero] at hn
    obtain ⟨b, rest, rfl, hb⟩ := h.uncons (by rw [hpay]; nofun)
    have hbyte : parseByte r b = parsePayload r b := by rw [parseByte, hpay]
    have hcnt : (r.cnt - 1).toNat = n := by bv_omega
    rw [hbyte] at hb
    obtain ⟨payload, crc, rfl, hlength⟩ := ih hb rfl hcnt
    exact ⟨b :: payload, crc, rfl, by rw [List.length_cons, hlength]⟩

/-- The seven header bytes, after which the payload is counted by the first length byte (R82, R83). -/
theorem Finishes.header {r : Receiver} {bytes : List Byte} (h : Finishes r bytes) (hstate : r.state = .src0) :
    ∃ src dst ctl pkt cmd rest, bytes = headerBytes src dst ctl pkt cmd ++ rest ∧
      Finishes (parseBytes r (headerBytes src dst ctl pkt cmd)) rest := by
  obtain ⟨src0, rest, rfl, hsrc0⟩ := h.uncons (by rw [hstate]; nofun)
  simp only [parseByte, hstate] at hsrc0
  obtain ⟨src1, rest, rfl, hsrc1⟩ := hsrc0.uncons nofun
  obtain ⟨dst0, rest, rfl, hdst0⟩ := hsrc1.uncons nofun
  obtain ⟨dst1, rest, rfl, hdst1⟩ := hdst0.uncons nofun
  obtain ⟨ctl, rest, rfl, hctl⟩ := hdst1.uncons nofun
  obtain ⟨pkt, rest, rfl, hpkt⟩ := hctl.uncons nofun
  obtain ⟨cmd, rest, rfl, _⟩ := hpkt.uncons nofun
  refine ⟨le16 src0 src1, le16 dst0 dst1, ctl, pkt, cmd, rest, by simp [headerBytes], ?_⟩
  simpa [headerBytes, Finishes] using h

/-- After the start marker the rest of a body of the regular structure, whatever the second length byte (R79 to R86). -/
theorem Finishes.body {r : Receiver} {bytes : List Byte} (h : Finishes (afterStart r) bytes) :
    ∃ l2 f, f.payload.length ≤ 255 ∧ 0x68 :: bytes = setL2 (bodyBytes f) l2 := by
  obtain ⟨l1, rest, rfl, hl1⟩ := h.uncons nofun
  obtain ⟨l2, rest, rfl, hl2⟩ := hl1.uncons nofun
  obtain ⟨mark, rest, rfl, hmark⟩ := hl2.uncons nofun
  obtain rfl := hmark.eq_of_expect
  obtain ⟨src, dst, ctl, pkt, cmd, rest, rfl, hheader⟩ := hmark.header rfl
  obtain ⟨payload, crc, rfl, hlength⟩ := hheader.payload rfl
  have hlength : payload.length = l1.toNat := hlength
  have hl1 : BitVec.ofNat 8 payload.length = l1 := by rw [hlength, BitVec.ofNat_toNat, BitVec.setWidth_eq]
  refine ⟨l2, { src, dst, ctl, pkt, cmd, payload, crc }, hlength.trans_le (Nat.le_of_lt_succ l1.isLt), ?_⟩
  simp [setL2_bodyBytes, hl1]

/-- A buffer begins with the start marker, or with the wake bytes and then the start marker (R76 to R78). -/
theorem Finishes.start {r : Receiver} {buf : List Byte} (h : Finishes r buf) (hidle : r.state = .idle) :
    ∃ rest, frameBody buf = 0x68 :: rest ∧ Finishes (afterStart r) rest := by
  obtain ⟨b, rest, rfl, hfirst⟩ := h.uncons (by rw [hidle]; nofun)
  simp only [parseByte, hidle] at hfirst
  by_cases hwake : b = 0xAA
  · subst hwake
    obtain ⟨wake, rest, rfl, hsecond⟩ := hfirst.uncons nofun
    obtain rfl := hsecond.eq_of_expect
    obtain ⟨mark, rest, rfl, hmark⟩ := hsecond.uncons nofun
    obtain rfl := hmark.eq_of_expect
    exact ⟨rest, rfl, hmark⟩
  · have hmark : firstState b = expect b 0x68 .l1 := if_neg hwake
    rw [hmark] at hfirst
    obtain rfl := Finishes.eq_of_expect (r := { r with sum := 0, lenmis := false }) hfirst
    exact ⟨rest, by simp [frameBody, hasWake], hfirst⟩

/-- Only the regular structure takes an idle parser to the end of a frame (R88). -/
theorem isRegular_of_finishes {r : Receiver} {buf : List Byte} (hidle : r.state = .idle) (h : Finishes r buf) :
    ∃ l2 f, IsRegular buf l2 f := by
  obtain ⟨rest, hbody, hrest⟩ := h.start hidle
  obtain ⟨l2, f, hlength, hlayout⟩ := hrest.body
  exact ⟨l2, f, hlength, hbody.trans hlayout⟩

/-! ### The two verdicts -/

/-- Settles O8: over the regular structure both give `regularVerdict`, over any other buffer both say malformed. -/
theorem parserGivesTheDecodersVerdict : Obligations.ParserGivesTheDecodersVerdict := by
  unfold Obligations.ParserGivesTheDecodersVerdict
  intro r buf hidle hwf _
  by_cases hregular : ∃ l2 f, IsRegular buf l2 f
  · obtain ⟨l2, f, h⟩ := hregular
    rw [parseBytes_of_regular hidle h, parserVerdict_afterRegular hwf h.length, decodeFrame_of_regular h]
  · have hparser : (parseBytes r buf).state ≠ .done := fun hdone => hregular (isRegular_of_finishes hidle hdone)
    have hdecoder : decodeFrame buf = .bad .malformed := by
      by_contra hne
      exact hregular (isRegular_of_decodeFrame hne)
    rw [hdecoder, parserVerdict, if_pos hparser]

end Sys2Proof.Machine
end

section
/-! SUPPORT. The quiet gap after a bad buffer (40_frame_codec R91); with it O10. -/

namespace Sys2Proof.Machine

/-- At the quiet gap after a bad buffer the error is counted and the parser closed (R91). -/
theorem step_of_rxQuiet_bad {s : State} {rest : List Event} {e : FrameError} (h : s.env.inputs = .rxQuiet :: rest)
    (hopen : s.rx.state ≠ .idle) (hverdict : parserVerdict s.rx = .bad e) :
    step s = .next (countFrameError e (closeBuffer (setInputs rest s))) := by
  have hfetch : fetchRxQuiet (setInputs rest s) = .settled (countFrameError e (closeBuffer (setInputs rest s))) := by
    simp [fetchRxQuiet, hopen, hverdict]
  rw [step_of_event h, fetchEvent, hfetch]
  rfl

/-- Settles O10: `step_of_rxQuiet_bad` for each error, whose counter and code (R136) `countFrameError` gives. -/
theorem badBufferIsCountedAndDropped : Obligations.BadBufferIsCountedAndDropped := by
  unfold Obligations.BadBufferIsCountedAndDropped
  intro s rest h hopen
  exact ⟨step_of_rxQuiet_bad h hopen, step_of_rxQuiet_bad h hopen, step_of_rxQuiet_bad h hopen⟩

end Sys2Proof.Machine
end

section
/-! SUPPORT. What one reassembly step answers to a frame, and what a sequence of frames comes to (41_reassembler R92 to
R98); with it O36, O37 and O38. -/

namespace Sys2Proof.Machine

/-! ### One step -/

theorem reasmFinish_buf (a : Accumulator) : (reasmFinish a).1.buf = a.buf := by
  rcases reasmFinish_cases a with ⟨_, h⟩ | ⟨_, h⟩ <;> rw [h]

/-- A reassembly step keeps the canonical form of the accumulator's buffer. -/
theorem wf_reasmStep {a : Accumulator} (h : Memory.wf a.buf = true) (capacity : Nat) (g : Frame) :
    Memory.wf (reasmStep capacity g a).1.buf = true := by
  rcases reasmStep_cases capacity g a with ⟨_, hs⟩ | ⟨_, _, hs⟩ | ⟨_, _, _, _, _, _, hs⟩ | ⟨_, _, _, _, _, _, hs⟩ <;>
    rw [hs]
  · rw [reasmFinish_buf]
    exact Memory.wf_writeBytes h _ _
  · exact h
  · exact h
  · rw [reasmFinish_buf]
    exact Memory.wf_writeBytes h _ _

/-- A fragment with a nonzero packet counter that is taken is kept: the accumulator holds the response so far with the
fragment joined, and bytes past it stay (R94). -/
theorem reasmStep_takes_pending {capacity : Nat} {cmd : Byte} {f : RxFields} {a : Accumulator}
    (h255 : 255 ≤ capacity) (h4096 : capacity ≤ 4096) (hf : f.wellFormed = true)
    (ht : TakesFragment capacity cmd f a) (hw : Memory.wf a.buf = true) (hpkt : f.pkt ≠ 0) :
    ∃ b : Accumulator, reasmStep capacity (f.frame cmd) a = (b, .pending) ∧ b.valid = true ∧ b.pkt = f.pkt ∧
      accResponse b = joinedResponse cmd f a ∧
      ∀ j, (accPayload b).length ≤ j → Memory.read b.buf j = Memory.read a.buf j := by
  obtain ⟨b, hstep, hvalid, hsrc, hdst, hctl, hcmd, hbpkt, hpayload, _, hrest⟩ := reasmStep_takes h255 h4096 hf ht hw
  have hfinish : reasmFinish b = (b, .pending) := if_neg (hbpkt ▸ hpkt)
  have hresponse : accResponse b = joinedResponse cmd f a := by
    rw [accResponse, joinedResponse, ← accPayload_of_valid hvalid, hsrc, hdst, hctl, hcmd, hpayload]
  exact ⟨b, hstep.trans hfinish, hvalid, hbpkt, hresponse, hrest⟩

/-- A frame that the reassembler does not drop as an error is taken (R94). -/
theorem takesFragment_of_reasmStep {capacity : Nat} {g : Frame} {a : Accumulator}
    (hsame : (reasmStep capacity g a).2 ≠ .inconsistent) (hfits : (reasmStep capacity g a).2 ≠ .overflow) :
    TakesFragment capacity g.cmd g.fields a := by
  intro hvalid
  rcases reasmStep_cases capacity g a with ⟨hempty, _⟩ | ⟨_, _, hs⟩ | ⟨_, _, _, _, _, _, hs⟩ |
    ⟨_, hsrc, hdst, hctl, hcmd, hlength, _⟩
  · exact absurd (hvalid.symm.trans hempty) nofun
  · exact absurd (congrArg Prod.snd hs) hsame
  · exact absurd (congrArg Prod.snd hs) hfits
  · exact ⟨hsrc, hdst, hctl, hcmd, hlength⟩

/-! ### The answer to a frame -/

section
variable {capacity : Nat} {g : Frame} {a : Accumulator} (h255 : 255 ≤ capacity) (h4096 : capacity ≤ 4096)
  (hg : g.payload.length ≤ 255) (hw : Memory.wf a.buf = true)
include h255 h4096 hg hw

/-- A taken frame that does not end the response is joined to what the accumulator holds (R94). -/
theorem reasmStep_joins (ht : TakesFragment capacity g.cmd g.fields a) (hpkt : g.pkt ≠ 0) :
    ∃ b : Accumulator, reasmStep capacity g a = (b, .pending) ∧ b.valid = true ∧
      accResponse b = joinedResponse g.cmd g.fields a := by
  obtain ⟨b, hstep, hvalid, _, hresponse, _⟩ :=
    reasmStep_takes_pending h255 h4096 (f := g.fields) (decide_eq_true hg) ht hw hpkt
  exact ⟨b, hstep, hvalid, hresponse⟩

/-- A taken frame with packet counter zero completes the response (R94). -/
theorem reasmStep_completes (ht : TakesFragment capacity g.cmd g.fields a) (hpkt : g.pkt = 0) :
    ∃ b : Accumulator, reasmStep capacity g a = (b, .complete (joinedResponse g.cmd g.fields a)) ∧
      b.valid = false := by
  obtain ⟨b, hstep, hvalid, _⟩ :=
    reasmStep_takes_last h255 h4096 (f := g.fields) (decide_eq_true hg) ht hw hpkt
  exact ⟨b, hstep, hvalid⟩

theorem reasmStep_eq_pending_iff :
    (reasmStep capacity g a).2 = .pending ↔ TakesFragment capacity g.cmd g.fields a ∧ g.pkt ≠ 0 := by
  constructor
  · intro h
    have ht : TakesFragment capacity g.cmd g.fields a := takesFragment_of_reasmStep (by simp [h]) (by simp [h])
    refine ⟨ht, fun hpkt => ?_⟩
    obtain ⟨b, hstep, _⟩ := reasmStep_completes h255 h4096 hg hw ht hpkt
    simp [hstep] at h
  · rintro ⟨ht, hpkt⟩
    obtain ⟨b, hstep, _⟩ := reasmStep_joins h255 h4096 hg hw ht hpkt
    rw [hstep]

theorem reasmStep_eq_complete_iff {r : Response} :
    (reasmStep capacity g a).2 = .complete r ↔
      TakesFragment capacity g.cmd g.fields a ∧ g.pkt = 0 ∧ r = joinedResponse g.cmd g.fields a := by
  constructor
  · intro h
    have ht : TakesFragment capacity g.cmd g.fields a := takesFragment_of_reasmStep (by simp [h]) (by simp [h])
    by_cases hpkt : g.pkt = 0
    · obtain ⟨b, hstep, _⟩ := reasmStep_completes h255 h4096 hg hw ht hpkt
      rw [hstep] at h
      exact ⟨ht, hpkt, (ReasmResult.complete.inj h).symm⟩
    · obtain ⟨b, hstep, _⟩ := reasmStep_joins h255 h4096 hg hw ht hpkt
      simp [hstep] at h
  · rintro ⟨ht, hpkt, rfl⟩
    obtain ⟨b, hstep, _⟩ := reasmStep_completes h255 h4096 hg hw ht hpkt
    rw [hstep]

end

/-! ### Headers -/

/-- The header fields of a frame, which all fragments of a response share (R94). -/
def frameHeader (g : Frame) : Half × Half × Byte × Byte := (g.src, g.dst, g.ctl, g.cmd)

/-- The header fields of a response. -/
def Response.header (r : Response) : Half × Half × Byte × Byte := (r.src, r.dst, r.ctl, r.cmd)

theorem frameHeader_eq_iff {g : Frame} {r : Response} :
    frameHeader g = r.header ↔ g.src = r.src ∧ g.dst = r.dst ∧ g.ctl = r.ctl ∧ g.cmd = r.cmd := by
  simp [frameHeader, Response.header]

theorem Response.eq_iff {r r' : Response} : r = r' ↔ r.header = r'.header ∧ r.payload = r'.payload := by
  cases r
  cases r'
  simp [Response.header, and_assoc]

@[simp] theorem joinedResponse_header (g : Frame) (a : Accumulator) :
    (joinedResponse g.cmd g.fields a).header = frameHeader g := rfl

@[simp] theorem joinedResponse_payload (g : Frame) (a : Accumulator) :
    (joinedResponse g.cmd g.fields a).payload = accPayload a ++ g.payload := rfl

theorem takesFragment_iff {capacity : Nat} {g : Frame} {a : Accumulator} :
    TakesFragment capacity g.cmd g.fields a ↔
      (a.valid = true → frameHeader g = (accResponse a).header ∧
        (accPayload a).length + g.payload.length ≤ capacity) := by
  refine forall_congr' fun hvalid => ?_
  rw [frameHeader_eq_iff, accPayload_of_valid hvalid, Memory.readBytes_length]
  simp only [and_assoc]
  rfl

/-- A response joined by one more frame is within the capacity: a first frame always is (R94). -/
theorem joinedResponse_length_le {capacity : Nat} {g : Frame} {a : Accumulator} (h255 : 255 ≤ capacity)
    (hg : g.payload.length ≤ 255) (ht : TakesFragment capacity g.cmd g.fields a) :
    (joinedResponse g.cmd g.fields a).payload.length ≤ capacity := by
  rw [joinedResponse_payload, List.length_append]
  cases hvalid : a.valid with
  | false => simpa [accPayload_of_empty hvalid] using hg.trans h255
  | true => exact (takesFragment_iff.mp ht hvalid).2

/-! ### A sequence of frames -/

/-- The frames `fs` and then `f` complete the response `r`, in an accumulator that starts as `a` (R94, R98). -/
structure Completes (capacity : Nat) (a : Accumulator) (fs : List Frame) (f : Frame) (r : Response) : Prop where
  started : a.valid = true → (accResponse a).header = r.header
  header : ∀ g ∈ fs ++ [f], frameHeader g = r.header
  payload : r.payload = accPayload a ++ (fs ++ [f]).flatMap Frame.payload
  last : f.pkt = 0
  counters : ∀ g ∈ fs, g.pkt ≠ 0
  fits : r.payload.length ≤ capacity

/-- The first of the frames is taken. -/
theorem Completes.takes_head {capacity : Nat} {a : Accumulator} {fs : List Frame} {f : Frame} {r : Response}
    (h : Completes capacity a fs f r) {g : Frame} {rest : List Frame} (hhead : fs ++ [f] = g :: rest) :
    TakesFragment capacity g.cmd g.fields a := by
  refine takesFragment_iff.mpr fun hvalid => ⟨?_, ?_⟩
  · exact (h.header g (by simp [hhead])).trans (h.started hvalid).symm
  · have hlength := h.fits
    simp only [h.payload, hhead, List.flatMap_cons, List.length_append] at hlength
    omega

/-- One frame alone completes the response it is joined to. -/
theorem completes_nil_iff {capacity : Nat} {a : Accumulator} {f : Frame} {r : Response} (h255 : 255 ≤ capacity)
    (hf : f.payload.length ≤ 255) :
    Completes capacity a [] f r ↔
      TakesFragment capacity f.cmd f.fields a ∧ f.pkt = 0 ∧ r = joinedResponse f.cmd f.fields a := by
  constructor
  · intro h
    refine ⟨h.takes_head rfl, h.last, Response.eq_iff.mpr ⟨(h.header f (by simp)).symm, ?_⟩⟩
    simpa using h.payload
  · rintro ⟨ht, hpkt, rfl⟩
    exact ⟨fun hvalid => (takesFragment_iff.mp ht hvalid).1.symm, by simp, by simp, hpkt, nofun,
      joinedResponse_length_le h255 hf ht⟩

/-- With the first frame joined, the others complete the same response. -/
theorem completes_cons_iff {capacity : Nat} {a b : Accumulator} {g : Frame} {fs : List Frame} {f : Frame}
    {r : Response} (hvalid : b.valid = true) (hjoined : accResponse b = joinedResponse g.cmd g.fields a)
    (ht : TakesFragment capacity g.cmd g.fields a) (hpkt : g.pkt ≠ 0) :
    Completes capacity a (g :: fs) f r ↔ Completes capacity b fs f r := by
  have hheader : (accResponse b).header = frameHeader g := by rw [hjoined, joinedResponse_header]
  have hpayload : accPayload b = accPayload a ++ g.payload := by
    rw [accPayload_of_valid hvalid]
    exact congrArg Response.payload hjoined
  constructor
  · intro h
    have hfirst := h.header g (by simp)
    refine ⟨fun _ => hheader.trans hfirst, fun g' hg' => h.header g' (List.mem_cons_of_mem g hg'), ?_, h.last,
      fun g' hg' => h.counters g' (List.mem_cons_of_mem g hg'), h.fits⟩
    rw [h.payload, hpayload, List.cons_append, List.flatMap_cons, List.append_assoc]
  · intro h
    have hfirst : frameHeader g = r.header := hheader.symm.trans (h.started hvalid)
    refine ⟨fun hva => (takesFragment_iff.mp ht hva).1.symm.trans hfirst, ?_, ?_, h.last, ?_, h.fits⟩
    · exact List.forall_mem_cons.mpr ⟨hfirst, h.header⟩
    · rw [h.payload, hpayload, List.cons_append, List.flatMap_cons, List.append_assoc]
    · exact List.forall_mem_cons.mpr ⟨hpkt, h.counters⟩

theorem reasmAll_cons (capacity : Nat) (a : Accumulator) (g : Frame) (fs : List Frame) :
    reasmAll capacity a (g :: fs) =
      ((reasmAll capacity (reasmStep capacity g a).1 fs).1,
        (reasmStep capacity g a).2 :: (reasmAll capacity (reasmStep capacity g a).1 fs).2) := rfl

/-- The reassembler answers a sequence with one response, at its end, exactly when the frames complete it. -/
theorem reasmAll_eq_complete_iff {capacity : Nat} (h255 : 255 ≤ capacity) (h4096 : capacity ≤ 4096)
    {a : Accumulator} (hw : Memory.wf a.buf = true) {fs : List Frame} {f : Frame} {r : Response}
    (hlength : ∀ g ∈ fs ++ [f], g.payload.length ≤ 255) :
    (reasmAll capacity a (fs ++ [f])).2 = List.replicate fs.length .pending ++ [.complete r] ↔
      Completes capacity a fs f r := by
  induction fs generalizing a with
  | nil =>
    have hf : f.payload.length ≤ 255 := hlength f (by simp)
    rw [completes_nil_iff h255 hf, ← reasmStep_eq_complete_iff h255 h4096 hf hw]
    simp [reasmAll]
  | cons g fs ih =>
    obtain ⟨hg, hrest⟩ := List.forall_mem_cons.mp hlength
    have hsplit : (reasmAll capacity a (g :: fs ++ [f])).2 =
          List.replicate (g :: fs).length .pending ++ [.complete r] ↔
        (TakesFragment capacity g.cmd g.fields a ∧ g.pkt ≠ 0) ∧
          Completes capacity (reasmStep capacity g a).1 fs f r := by
      rw [← reasmStep_eq_pending_iff h255 h4096 hg hw, ← ih (wf_reasmStep hw capacity g) hrest]
      simp [reasmAll_cons, List.replicate_succ]
    have hjoin (ht : TakesFragment capacity g.cmd g.fields a) (hpkt : g.pkt ≠ 0) :
        Completes capacity a (g :: fs) f r ↔ Completes capacity (reasmStep capacity g a).1 fs f r := by
      obtain ⟨b, hstep, hvalid, hjoined⟩ := reasmStep_joins h255 h4096 hg hw ht hpkt
      rw [hstep]
      exact completes_cons_iff hvalid hjoined ht hpkt
    rw [hsplit]
    constructor
    · rintro ⟨⟨ht, hpkt⟩, h⟩
      exact (hjoin ht hpkt).mpr h
    · intro h
      have ht := h.takes_head rfl
      have hpkt := h.counters g (by simp)
      exact ⟨⟨ht, hpkt⟩, (hjoin ht hpkt).mp h⟩

/-- A completed response leaves the accumulator empty (R94). -/
theorem reasmStep_valid_of_complete {capacity : Nat} {g : Frame} {a : Accumulator} {r : Response}
    (h : (reasmStep capacity g a).2 = .complete r) : (reasmStep capacity g a).1.valid = false := by
  have hfinish (b : Accumulator) (hb : (reasmFinish b).2 = .complete r) : (reasmFinish b).1.valid = false := by
    rcases reasmFinish_cases b with ⟨_, hs⟩ | ⟨_, hs⟩ <;> rw [hs] at hb ⊢
    exact absurd hb nofun
  rcases reasmStep_cases capacity g a with ⟨_, hs⟩ | ⟨_, _, hs⟩ | ⟨_, _, _, _, _, _, hs⟩ | ⟨_, _, _, _, _, _, hs⟩ <;>
    rw [hs] at h ⊢
  · exact hfinish _ h
  · exact hfinish _ h

/-- A sequence whose last frame completes a response leaves the accumulator empty. -/
theorem reasmAll_valid_of_complete {capacity : Nat} {a : Accumulator} {fs : List Frame} {f : Frame} {r : Response}
    (h : (reasmAll capacity a (fs ++ [f])).2 = List.replicate fs.length .pending ++ [.complete r]) :
    (reasmAll capacity a (fs ++ [f])).1.valid = false := by
  induction fs generalizing a with
  | nil => exact reasmStep_valid_of_complete (List.cons.inj h).1
  | cons g fs ih => exact ih (List.cons.inj h).2

/-- Settles O36: `reasmAll_eq_complete_iff` from left to right, the accumulator holding nothing at the start. -/
theorem completeResponseIsItsFragments : Obligations.CompleteResponseIsItsFragments := by
  unfold Obligations.CompleteResponseIsItsFragments
  intro capacity a fs f r h255 h4096 hempty hw hlength hresults
  have h := (reasmAll_eq_complete_iff h255 h4096 hw hlength).mp hresults
  refine ⟨fun g hg => frameHeader_eq_iff.mp (h.header g hg), ?_, h.last, h.counters, h.fits⟩
  rw [h.payload, accPayload_of_empty hempty, List.nil_append]

/-- Settles O37: `reasmAll_eq_complete_iff` from right to left. -/
theorem fragmentsReassemble : Obligations.FragmentsReassemble := by
  unfold Obligations.FragmentsReassemble
  intro capacity a fs f h255 h4096 hempty hw hlength hfragments hpkt hfits
  have hcompletes :
      Completes capacity a fs f ⟨f.src, f.dst, f.ctl, f.cmd, (fs ++ [f]).flatMap Frame.payload⟩ := by
    refine ⟨fun hvalid => absurd (hvalid.symm.trans hempty) nofun, fun g hg => ?_, ?_, hpkt, fun g hg => ?_, hfits⟩
    · rcases List.mem_append.mp hg with hg | hg
      · obtain ⟨hsrc, hdst, hctl, hcmd, _⟩ := hfragments g hg
        exact frameHeader_eq_iff.mpr ⟨hsrc, hdst, hctl, hcmd⟩
      · obtain rfl := List.mem_singleton.mp hg
        rfl
    · rw [accPayload_of_empty hempty, List.nil_append]
    · obtain ⟨_, _, _, _, hne⟩ := hfragments g hg
      exact hne
  have hresults := (reasmAll_eq_complete_iff h255 h4096 hw hlength).mpr hcompletes
  exact ⟨reasmAll_valid_of_complete hresults, hresults⟩

/-! ### A fragment kept in an await -/

/-- The unicast await hands the answer of `ReasmStep` to `UniResult` (42_multiplexer R121). -/
theorem deliver_of_awaitUni {g : Frame} {s : State} {b : Accumulator} {res : ReasmResult}
    (hmux : s.seq.muxState = .awaitUni) (hstep : reasmStep s.params.reasmMax g s.acc = (b, res)) :
    deliver g s = uniResult res { s with acc := b } := by
  rw [deliver, hmux, reasmAnswer, reasmState, hstep]

/-- The gather looks at the answer of `ReasmStep` itself (R124). -/
theorem deliver_of_awaitGather {g : Frame} {s : State} {b : Accumulator} {res : ReasmResult}
    (hmux : s.seq.muxState = .awaitGather) (hstep : reasmStep s.params.reasmMax g s.acc = (b, res)) :
    deliver g s = gatherResult res { s with acc := b } := by
  rw [deliver, hmux, reasmAnswer, reasmState, hstep]


/-- Settles O38: both awaits leave the state to `ReasmStep` while the answer is `Pending` (42_multiplexer R121, R124). -/
theorem pendingFragmentIsKept : Obligations.PendingFragmentIsKept := by
  unfold Obligations.PendingFragmentIsKept
  intro row hrow f s hf hawait ht hpkt hw
  obtain ⟨h255, h4096⟩ := reasmMax_bounds s.params
  obtain ⟨b, hstep, hvalid, hbpkt, hresponse, hrest⟩ := reasmStep_takes_pending h255 h4096 hf ht hw hpkt
  have hdeliver : deliver (f.frame row.2) s = { s with acc := b } := by
    rcases hawait with hmux | hmux
    · exact deliver_of_awaitUni hmux hstep
    · exact deliver_of_awaitGather hmux hstep
  refine ⟨_, exec_receiveRow hrow hf s, ?_⟩
  rw [hdeliver]
  refine ⟨rfl, hvalid, congrArg Response.src hresponse, congrArg Response.dst hresponse,
    congrArg Response.ctl hresponse, congrArg Response.cmd hresponse, hbpkt, ?_, hrest⟩
  rw [accPayload_of_valid hvalid]
  exact congrArg Response.payload hresponse

end Sys2Proof.Machine
end

section
/-! SUPPORT. What a complete response and a fragment error come to in the two awaits (42_multiplexer R121, R123 to R126);
with it O41 and O43 to O46. -/

namespace Sys2Proof.Machine

/-! ### A fragment error -/

/-- A fragment of another response is dropped with what was gathered (41_reassembler R94). -/
theorem reasmStep_of_other_header {capacity : Nat} {g : Frame} {a : Accumulator} (hvalid : a.valid = true)
    (hother : ¬(g.src = a.src ∧ g.dst = a.dst ∧ g.ctl = a.ctl ∧ g.cmd = a.cmd)) :
    reasmStep capacity g a = ({ a with valid := false }, .inconsistent) := by
  rcases reasmStep_cases capacity g a with ⟨hempty, _⟩ | ⟨_, _, hs⟩ | ⟨_, hsrc, hdst, hctl, hcmd, _⟩ |
    ⟨_, hsrc, hdst, hctl, hcmd, _⟩
  · exact absurd (hvalid.symm.trans hempty) nofun
  · exact hs
  · exact absurd ⟨hsrc, hdst, hctl, hcmd⟩ hother
  · exact absurd ⟨hsrc, hdst, hctl, hcmd⟩ hother

/-- A fragment that does not fit is dropped with what was gathered (R94, R138). -/
theorem reasmStep_of_overflow {capacity : Nat} {g : Frame} {a : Accumulator} (hvalid : a.valid = true)
    (hsame : g.src = a.src ∧ g.dst = a.dst ∧ g.ctl = a.ctl ∧ g.cmd = a.cmd)
    (hlength : capacity < a.len.toNat + g.payload.length) :
    reasmStep capacity g a = ({ a with valid := false }, .overflow) := by
  rcases reasmStep_cases capacity g a with ⟨hempty, _⟩ | ⟨_, hother, _⟩ | ⟨_, _, _, _, _, _, hs⟩ |
    ⟨_, _, _, _, _, hfits, _⟩
  · exact absurd (hvalid.symm.trans hempty) nofun
  · simp [hsame] at hother
  · exact hs
  · exact absurd hfits (Nat.not_le_of_lt hlength)

/-! ### The unicast await -/

/-- A failed ENUMERATE completes with the code (R108, R123). -/
theorem concludeFailure_of_enumerate (c : Code) {s : State} (h : s.seq.curOp = .enumerate) :
    concludeFailure c s = { s with
      seq := { s.seq with muxState := .idle, curOp := .none, abortPending := false }
      acc := { s.acc with valid := false }
      resp := { (storeFailure c s).resp with dev := s.seq.enumD, slot := 0 }
      ctl := { s.ctl with done := true, err := c.bits } } := by
  rcases concludeOp_cases c (storeFailure c s) with ⟨_, hend⟩ | ⟨hne, _⟩
  · exact hend
  · exact absurd h hne

/-- A failed request of a POLL is held for the host with its slot (R123). -/
theorem concludeFailure_of_poll (c : Code) {s : State} (h : s.seq.curOp = .poll) :
    concludeFailure c s = { s with
      seq := { s.seq with muxState := .hold }
      acc := { s.acc with valid := false }
      resp := { (storeFailure c s).resp with dev := s.seq.pollD.extractLsb' 0 4, slot := s.seq.pollK } } := by
  have hdev : s.seq.pollD.setWidth 4 = s.seq.pollD.extractLsb' 0 4 := BitVec.eq_of_toNat_eq rfl
  rcases concludeOp_cases c (storeFailure c s) with ⟨heq, _⟩ | ⟨_, hend⟩
  · exact absurd (h.symm.trans heq) nofun
  · rw [← hdev]
    exact hend

/-- In the unicast await a fragment error concludes the transaction with its code (R121, R138). -/
theorem exec_fragment_error {row : (RxFields → Instr) × Byte} (hrow : row ∈ receiveRows) {f : RxFields} {s : State}
    (hf : f.wellFormed = true) (hmux : s.seq.muxState = .awaitUni) (hvalid : s.acc.valid = true) {code : BitVec 4}
    (herror : (¬(f.src = s.acc.src ∧ f.dst = s.acc.dst ∧ f.ctl = s.acc.ctl ∧ row.2 = s.acc.cmd)) ∧ code = 4 ∨
      (f.src = s.acc.src ∧ f.dst = s.acc.dst ∧ f.ctl = s.acc.ctl ∧ row.2 = s.acc.cmd ∧
        s.params.reasmMax < s.acc.len.toNat + f.payload.length ∧ code = 8)) :
    ∃ c : Code, c.bits = code ∧
      exec (row.1 f) s = .next (concludeFailure c { s with acc := { s.acc with valid := false } }) := by
  rcases herror with ⟨hother, rfl⟩ | ⟨hsrc, hdst, hctl, hcmd, hlength, rfl⟩
  · have hstep := reasmStep_of_other_header (capacity := s.params.reasmMax) (g := f.frame row.2) hvalid hother
    refine ⟨.fragmentInconsistent, rfl, ?_⟩
    rw [exec_receiveRow hrow hf, deliver_of_awaitUni hmux hstep]
    rfl
  · have hstep := reasmStep_of_overflow (g := f.frame row.2) hvalid ⟨hsrc, hdst, hctl, hcmd⟩ hlength
    refine ⟨.reasmOverflow, rfl, ?_⟩
    rw [exec_receiveRow hrow hf, deliver_of_awaitUni hmux hstep]
    rfl

/-- Settles O41: `exec_fragment_error`, then the end of `conclude` for ENUMERATE and for POLL (R123). -/
theorem fragmentErrorConcludesTheTransaction : Obligations.FragmentErrorConcludesTheTransaction := by
  unfold Obligations.FragmentErrorConcludesTheTransaction
  intro row hrow f s hf hmux hvalid code herror
  obtain ⟨c, rfl, hexec⟩ := exec_fragment_error hrow hf hmux hvalid herror
  rw [hexec]
  exact ⟨fun hop => congrArg _ (concludeFailure_of_enumerate c hop),
    fun hop => congrArg _ (concludeFailure_of_poll c hop)⟩

/-! ### The gather -/

/-- Settles O46: either error of `ReasmStep` is counted and the gather goes on (R124). -/
theorem fragmentErrorKeepsTheGather : Obligations.FragmentErrorKeepsTheGather := by
  unfold Obligations.FragmentErrorKeepsTheGather
  intro row hrow f s hf hmux hvalid herror
  rw [exec_receiveRow hrow hf]
  by_cases hsame : f.src = s.acc.src ∧ f.dst = s.acc.dst ∧ f.ctl = s.acc.ctl ∧ row.2 = s.acc.cmd
  · have hlength := herror.resolve_left (not_not_intro hsame)
    have hstep := reasmStep_of_overflow (g := f.frame row.2) hvalid hsame hlength
    rw [deliver_of_awaitGather hmux hstep]
    rfl
  · have hstep := reasmStep_of_other_header (capacity := s.params.reasmMax) (g := f.frame row.2) hvalid hsame
    rw [deliver_of_awaitGather hmux hstep]
    rfl

/-- In the gather the last fragment's row hands on the whole response, with the accumulator emptied (R124). -/
theorem exec_last_gathered {row : (RxFields → Instr) × Byte} (hrow : row ∈ receiveRows) {f : RxFields} {s : State}
    (hf : f.wellFormed = true) (hmux : s.seq.muxState = .awaitGather)
    (ht : TakesFragment s.params.reasmMax row.2 f s.acc) (hpkt : f.pkt = 0) (hw : Memory.wf s.acc.buf = true) :
    ∃ b : Accumulator, b.valid = false ∧
      exec (row.1 f) s = .next (gatherResponse (joinedResponse row.2 f s.acc) { s with acc := b }) := by
  obtain ⟨h255, h4096⟩ := reasmMax_bounds s.params
  obtain ⟨b, hstep, hempty, _⟩ := reasmStep_takes_last h255 h4096 hf ht hw hpkt
  refine ⟨b, hempty, ?_⟩
  rw [exec_receiveRow hrow hf, deliver_of_awaitGather hmux hstep]
  rfl

/-- Settles O45: `exec_last_gathered`, and none of the three is a discovery answer (R125). -/
theorem otherGatheredResponseIsUnsolicited : Obligations.OtherGatheredResponseIsUnsolicited := by
  unfold Obligations.OtherGatheredResponseIsUnsolicited
  intro row hrow f s hf hmux ht hw hpkt hother
  obtain ⟨b, hempty, hexec⟩ := exec_last_gathered hrow hf hmux ht hpkt hw
  have hanswer : ¬(row.2 = 6 ∧ f.src ≠ 0 ∧ 12 ≤ (accPayload s.acc ++ f.payload).length) := by
    rintro ⟨hcmd, hsrc, hlength⟩
    rcases hother with h | h | h
    · exact h hcmd
    · exact hsrc h
    · omega
  exact ⟨_, hexec.trans (congrArg _ (if_neg hanswer)), hempty, rfl⟩

/-! ### The device a discovery answer names -/

/-- The first four bytes of a discovery payload are the serial number (R125). -/
theorem le32Bytes_payloadSerial {p : List Byte} (h : 12 ≤ p.length) : le32Bytes (payloadSerial p) = p.take 4 := by
  match p, h with
  | b0 :: b1 :: b2 :: b3 :: rest, _ => exact le32Bytes_le32 b0 b1 b2 b3

/-- The next eight bytes are the type tag (R125). -/
theorem payloadTag_toList {p : List Byte} (h : 12 ≤ p.length) : (payloadTag p).toList = (p.drop 4).take 8 := by
  match p, h with
  | _ :: _ :: _ :: _ :: b4 :: b5 :: b6 :: b7 :: b8 :: b9 :: b10 :: b11 :: rest, _ => rfl

/-- A discovery answer from a nonzero address inserts the device it names (R125, R126). -/
theorem exec_discovery_answer {f : RxFields} {s : State} (hf : f.wellFormed = true)
    (hmux : s.seq.muxState = .awaitGather) (ht : TakesFragment s.params.reasmMax 6 f s.acc) (hpkt : f.pkt = 0)
    (hw : Memory.wf s.acc.buf = true) (hsrc : f.src ≠ 0) (hlength : 12 ≤ (accPayload s.acc ++ f.payload).length) :
    ∃ b : Accumulator, b.valid = false ∧ exec (.rxGetNetStart f) s =
      .next (gatherInsert f.src (payloadSerial (accPayload s.acc ++ f.payload))
        (payloadTag (accPayload s.acc ++ f.payload)) { s with acc := b }) := by
  have hrow : ((.rxGetNetStart, 6) : (RxFields → Instr) × Byte) ∈ receiveRows := List.mem_cons_self
  obtain ⟨b, hempty, hexec⟩ := exec_last_gathered hrow hf hmux ht hpkt hw
  exact ⟨b, hempty, hexec.trans (congrArg _ (if_pos ⟨rfl, hsrc, hlength⟩))⟩

theorem findDevice_eq_none {s : State} {a : Half} (h : ∀ i < s.tab.devCount.toNat, deviceAddr s i ≠ a) :
    findDevice s a = none :=
  List.find?_eq_none.mpr fun i hi => by simpa using h i (List.mem_range.mp hi)

/-- In a keyed table the device found is the one with the address (10_state R22). -/
theorem DeviceTableSound.findDevice_eq_some {s : State} (h : DeviceTableSound s) {i : Nat}
    (hi : i < s.tab.devCount.toNat) : findDevice s (deviceAddr s i) = some i := by
  cases hfound : findDevice s (deviceAddr s i) with
  | none => exact absurd rfl (findDevice_none hfound i hi)
  | some j =>
    obtain ⟨hj, haddr⟩ := findDevice_some hfound
    rcases Nat.lt_trichotomy i j with hlt | rfl | hlt
    · exact absurd haddr.symm (h.keyed i j hlt hj)
    · rfl
    · exact absurd haddr (h.keyed j i hlt hi)

/-- Settles O43: `exec_discovery_answer`, and no entry has the address, so `GatherInsert` appends or drops (R126). -/
theorem newDeviceIsAppended : Obligations.NewDeviceIsAppended := by
  unfold Obligations.NewDeviceIsAppended
  intro f s hf hmux ht hw hpkt hsrc hlength hnew
  obtain ⟨b, hempty, hexec⟩ := exec_discovery_answer hf hmux ht hpkt hw hsrc hlength
  have hnone : findDevice { s with acc := b } f.src = none := findDevice_eq_none hnew
  have hmax := maxDevices_le s.params
  rcases gatherInsert_cases f.src (payloadSerial (accPayload s.acc ++ f.payload))
      (payloadTag (accPayload s.acc ++ f.payload)) { s with acc := b } with
    ⟨i, hfound, _⟩ | ⟨_, hroom, hinsert⟩ | ⟨_, hfull, hinsert⟩
  · exact absurd (hnone.symm.trans hfound) nofun
  · rw [hinsert] at hexec
    have hroom : s.tab.devCount.toNat < s.params.maxDevices := hroom
    refine ⟨fun _ => ⟨_, hexec, ?_, ?_⟩, fun hfull => absurd hroom (Nat.not_lt_of_le hfull)⟩
    · change (s.tab.devCount + 1).toNat = s.tab.devCount.toNat + 1
      bv_omega
    · rw [deviceAt_set_same (s := s) rfl (by omega)]
      exact ⟨rfl, le32Bytes_payloadSerial hlength, payloadTag_toList hlength,
        fun i hi => deviceAt_set_other rfl hi.symm, hempty, rfl⟩
  · rw [hinsert] at hexec
    exact ⟨fun hroom => absurd hroom (Nat.not_lt_of_le hfull), fun _ => ⟨_, hexec, hempty, rfl⟩⟩

/-- Settles O44: `exec_discovery_answer`, and the keyed table has one entry with the address (R126). -/
theorem knownDeviceIsUpdatedInPlace : Obligations.KnownDeviceIsUpdatedInPlace := by
  unfold Obligations.KnownDeviceIsUpdatedInPlace
  intro f s i hf hmux ht hw hsound hpkt hlength hi haddr
  have hsrc : f.src ≠ 0 := haddr ▸ hsound.nonzero i hi
  have hstorage : i < 16 := (hi.trans_le hsound.count).trans_le (maxDevices_le s.params)
  obtain ⟨b, hempty, hexec⟩ := exec_discovery_answer hf hmux ht hpkt hw hsrc hlength
  have hfound : findDevice { s with acc := b } f.src = some i := haddr ▸ hsound.findDevice_eq_some hi
  rw [gatherInsert, hfound] at hexec
  refine ⟨_, hexec, ?_⟩
  rw [deviceAt_set_same (s := s) rfl hstorage]
  exact ⟨haddr, le32Bytes_payloadSerial hlength, payloadTag_toList hlength,
    fun j hj => deviceAt_set_other rfl hj.symm, hempty, rfl⟩

end Sys2Proof.Machine
end

section
/-! SUPPORT. What keeps the sequencer sound (42_multiplexer R100 to R129), operation by operation: a completion always ends
in a sound state, and each other operation moves on from the state its rule asks for; with it O53. -/

namespace Sys2Proof.Machine

/-! ### What soundness reads -/

/-- What `SequencerSound` reads of a state. -/
def sequencerFields (s : State) : Sequencer × (Bool × Byte) × (Bool × BitVec 4) × Bool :=
  (s.seq, (s.acc.valid, s.acc.pkt), (s.ctl.done, s.ctl.err), s.resp.valid)

theorem SequencerSound.of_fields_eq {s t : State} (h : SequencerSound s)
    (heq : sequencerFields t = sequencerFields s) : SequencerSound t := by
  simp only [sequencerFields, Prod.mk.injEq] at heq
  obtain ⟨seq, ⟨valid, pkt⟩, ⟨done, err⟩, resp⟩ := heq
  have hbusy : busy t = busy s := by rw [busy, seq, busy]
  have hhold : hold t = hold s := by rw [hold, seq, hold]
  exact ⟨seq ▸ h.fits, seq ▸ h.abortInTx, hbusy ▸ done ▸ err ▸ h.busyNotDone, hhold ▸ resp ▸ h.holdValid,
    valid ▸ pkt ▸ seq ▸ h.accOnlyInAwait⟩

/-! ### What a sound sequencer is in each state -/

/-- Outside the awaits the accumulator is empty (41_reassembler R93). -/
theorem SequencerSound.acc_empty {s : State} (h : SequencerSound s) (huni : s.seq.muxState ≠ .awaitUni)
    (hgather : s.seq.muxState ≠ .awaitGather) : s.acc.valid = false := by
  by_contra hvalid
  obtain ⟨hmux | hmux, _⟩ := h.accOnlyInAwait (Bool.eq_true_of_not_eq_false hvalid)
  · exact huni hmux
  · exact hgather hmux

/-- In IDLE nothing is gathered. -/
theorem SequencerSound.acc_empty_of_idle {s : State} (h : SequencerSound s) (hmux : s.seq.muxState = .idle) :
    s.acc.valid = false := h.acc_empty (by simp [hmux]) (by simp [hmux])

/-- No ABORT is pending outside TX (R116). -/
theorem SequencerSound.no_abort {s : State} (h : SequencerSound s) (hmux : s.seq.muxState ≠ .tx) :
    s.seq.abortPending = false := by
  by_contra hpending
  exact hmux (h.abortInTx (Bool.eq_true_of_not_eq_false hpending))

/-- A busy block has not completed (R107, R142). -/
theorem SequencerSound.not_done {s : State} (h : SequencerSound s) (hmux : s.seq.muxState ≠ .idle) :
    s.ctl.done = false ∧ s.ctl.err = 0 := h.busyNotDone (busy_eq_true hmux)

/-- The settle wait and the held result belong to a POLL (R115, R129). -/
theorem SequencerSound.curOp_of_poll_state {s : State} (h : SequencerSound s)
    (hmux : s.seq.muxState = .settle ∨ s.seq.muxState = .hold) : s.seq.curOp = .poll := by
  have hfits := h.fits
  rcases hmux with hmux | hmux <;> simpa [sequencerFits, hmux] using hfits

/-- The unicast await belongs to ENUMERATE or POLL (R101). -/
theorem SequencerSound.curOp_of_awaitUni {s : State} (h : SequencerSound s) (hmux : s.seq.muxState = .awaitUni) :
    s.seq.curOp = .enumerate ∨ s.seq.curOp = .poll := by
  simpa [sequencerFits, hmux] using h.fits

/-! ### Completion, refusal and reset -/

/-- A completion ends in a sound state wherever it starts (R108). -/
theorem sequencerSound_complete (c : Code) (s : State) : SequencerSound (complete c s) :=
  ⟨rfl, nofun, nofun, nofun, nofun⟩

theorem sequencerSound_resetState (s : State) : SequencerSound (resetState s) :=
  sequencerSound_reset.of_fields_eq rfl

theorem sequencerSound_refuse {s : State} (h : SequencerSound s) : SequencerSound (refuse s) := h.of_fields_eq rfl

/-! ### Starting a transmission -/

/-- A transmission starts sound for an operation that may await `next`, not completed, with nothing gathered (R101,
R102). -/
theorem sequencerSound_startTx (frame : List Byte) {next : TxNext} {s : State}
    (hfits : sequencerFits { s.seq with muxState := .tx, txNext := next } = true)
    (hdone : s.ctl.done = false ∧ s.ctl.err = 0) (hempty : s.acc.valid = false) :
    SequencerSound (startTx frame next s) :=
  ⟨hfits, fun _ => rfl, fun _ => hdone, nofun, fun hvalid => absurd (hvalid.symm.trans hempty) nofun⟩

theorem sequencerSound_whenIdle {act : State → State}
    (hact : ∀ s, SequencerSound s → s.seq.muxState = .idle → SequencerSound (act s)) {s : State}
    (h : SequencerSound s) : SequencerSound (whenIdle act s) := by
  rcases whenIdle_cases act s with ⟨hmux, hs⟩ | ⟨_, hs⟩ <;> rw [hs]
  · exact hact s h hmux
  · exact sequencerSound_refuse h

theorem sequencerSound_discoverIdle (s : State) (h : SequencerSound s) (hmux : s.seq.muxState = .idle) :
    SequencerSound (discoverIdle s) := sequencerSound_startTx _ rfl ⟨rfl, rfl⟩ (h.acc_empty_of_idle hmux)

theorem sequencerSound_enumerateIdle (s : State) (h : SequencerSound s) (hmux : s.seq.muxState = .idle) :
    SequencerSound (enumerateIdle s) := by
  rcases enumerateIdle_cases s with ⟨_, hs⟩ | ⟨_, hs⟩ <;> rw [hs]
  · exact sequencerSound_complete _ _
  · exact sequencerSound_startTx _ rfl ⟨rfl, rfl⟩ (h.acc_empty_of_idle hmux)

theorem sequencerSound_pollIdle (s : State) (h : SequencerSound s) (hmux : s.seq.muxState = .idle) :
    SequencerSound (pollIdle s) := sequencerSound_startTx _ rfl ⟨rfl, rfl⟩ (h.acc_empty_of_idle hmux)

/-- A POLL goes on to a slot from the settle wait or a held result, or completes (R115, R129). -/
theorem sequencerSound_pollSlot (slot : Option (Nat × Nat)) {s : State} (hop : s.seq.curOp = .poll)
    (hdone : s.ctl.done = false ∧ s.ctl.err = 0) (hempty : s.acc.valid = false) :
    SequencerSound (pollSlot slot s) := by
  rcases pollSlot_cases slot s with ⟨_, hs⟩ | ⟨d, k, _, hs⟩ <;> rw [hs]
  · exact sequencerSound_complete _ _
  · exact sequencerSound_startTx _ (by simp [sequencerFits, hop]) hdone hempty

/-! ### The other host operations -/

theorem sequencerSound_reservedOp {s : State} (h : SequencerSound s) : SequencerSound (reservedOp s) := by
  rcases reservedOp_cases s with ⟨_, hs⟩ | ⟨_, hs⟩ <;> rw [hs]
  · exact sequencerSound_complete _ _
  · exact sequencerSound_refuse h

theorem sequencerSound_continueHeld {s : State} (h : SequencerSound s) (hmux : s.seq.muxState = .hold) :
    SequencerSound (continueHeld s) :=
  sequencerSound_pollSlot _ (h.curOp_of_poll_state (.inr hmux)) (h.not_done (by simp [hmux]))
    (h.acc_empty (by simp [hmux]) (by simp [hmux]))

theorem sequencerSound_of_execContinuePoll {s t : State} (h : SequencerSound s)
    (hexec : execContinuePoll s = .next t) : SequencerSound t := by
  rcases execContinuePoll_cases s with ⟨_, hs⟩ | ⟨hmux, hs⟩ | ⟨_, _, hs⟩ <;>
    obtain rfl := Host.Outcome.next.inj (hs.symm.trans hexec)
  · exact sequencerSound_complete _ _
  · exact sequencerSound_continueHeld h hmux
  · exact sequencerSound_refuse h

/-- ABORT leaves its mark in TX only (R116). -/
theorem sequencerSound_of_execAbort {s t : State} (h : SequencerSound s) (hexec : execAbort s = .next t) :
    SequencerSound t := by
  rcases execAbort_cases s with ⟨_, hs⟩ | ⟨hmux, hs⟩ | ⟨_, _, hs⟩ <;>
    obtain rfl := Host.Outcome.next.inj (hs.symm.trans hexec)
  · exact h
  · exact ⟨h.fits, fun _ => hmux, h.busyNotDone, h.holdValid, h.accOnlyInAwait⟩
  · exact sequencerSound_complete _ _

theorem sequencerSound_of_command {w : Word} {s t : State} (h : SequencerSound s)
    (hexec : exec (decodeCommand w) s = .next t) : SequencerSound t := by
  rcases command_cases w s with hs | hs | hs | hs | hs | hs | hs | hs <;> rw [hs] at hexec
  case inr.inr.inr.inr.inl => exact sequencerSound_of_execContinuePoll h hexec
  case inr.inr.inr.inr.inr.inl => exact sequencerSound_of_execAbort h hexec
  all_goals obtain rfl := Host.Outcome.next.inj hexec
  · exact h
  · exact sequencerSound_whenIdle sequencerSound_discoverIdle h
  · exact sequencerSound_whenIdle sequencerSound_enumerateIdle h
  · exact sequencerSound_whenIdle sequencerSound_pollIdle h
  · exact sequencerSound_reservedOp h
  · exact sequencerSound_resetState s

/-- A STATUS write can clear `done`, never set it (20_memory R36). -/
theorem sequencerSound_writeStatus (w : Word) {s : State} (h : SequencerSound s) :
    SequencerSound (writeStatus w s) := by
  refine ⟨h.fits, h.abortInTx, fun hbusy => ?_, h.holdValid, h.accOnlyInAwait⟩
  obtain ⟨hdone, herr⟩ := h.busyNotDone hbusy
  exact ⟨by simp [writeStatus, hdone], herr⟩

theorem sequencerSound_writeReg (w : Word) {s : State} (h : SequencerSound s) (r : HostReg) :
    SequencerSound (writeReg w s r) := by
  cases r with
  | status => exact sequencerSound_writeStatus w h
  | arg | crt =>
    rw [writeReg]
    split <;> exact h.of_fields_eq rfl
  | _ => exact h.of_fields_eq rfl

/-! ### The block's turn -/

/-- A state that fits is sound when no ABORT, no completion, no held result and no fragment is there to ask more. -/
theorem sequencerSound_of_fits {s : State} (hfits : sequencerFits s.seq = true) (hclear : s.seq.abortPending = false)
    (hdone : s.ctl.done = false ∧ s.ctl.err = 0) (hhold : hold s = false) (hempty : s.acc.valid = false) :
    SequencerSound s :=
  ⟨hfits, fun habort => absurd (habort.symm.trans hclear) nofun, fun _ => hdone,
    fun hheld => absurd (hheld.symm.trans hhold) nofun, fun hvalid => absurd (hvalid.symm.trans hempty) nofun⟩

/-- After the last byte the sequencer enters the state `tx_next` names, which fits the operation (R101, R119). -/
theorem sequencerSound_enterNext {s : State} (h : SequencerSound s) (hmux : s.seq.muxState = .tx)
    (hclear : s.seq.abortPending = false) : SequencerSound (enterNext s) := by
  have hfits := h.fits
  have hdone := h.not_done (by simp [hmux])
  rcases enterNext_cases s with ⟨hnext, hs⟩ | ⟨hnext, hs⟩ | ⟨hnext, hs⟩ <;> rw [hs]
  · refine sequencerSound_of_fits ?_ hclear hdone rfl rfl
    cases hop : s.seq.curOp <;> simp [sequencerFits, hmux, hnext, hop] at hfits ⊢
  · refine sequencerSound_of_fits ?_ hclear hdone rfl rfl
    cases hop : s.seq.curOp <;> simp [sequencerFits, hmux, hnext, hop] at hfits ⊢
  · refine sequencerSound_of_fits ?_ hclear hdone rfl (h.acc_empty (by simp [hmux]) (by simp [hmux]))
    cases hop : s.seq.curOp <;> simp [sequencerFits, hmux, hnext, hop] at hfits ⊢

theorem sequencerSound_blockStep {s : State} (h : SequencerSound s) : SequencerSound (blockStep s) := by
  have hemit : SequencerSound (emitByte s) := h.of_fields_eq rfl
  rcases blockStep_cases s with ⟨_, hs⟩ | ⟨_, _, hs⟩ | ⟨_, _, _, hs⟩ | ⟨hmux, _, hclear, hs⟩ <;> rw [hs]
  · exact h
  · exact hemit
  · exact sequencerSound_complete _ _
  · exact sequencerSound_enterNext hemit hmux hclear

/-! ### Delivery -/

/-- A fragment stays in the accumulator only with more to come (41_reassembler R94). -/
theorem reasmStep_pkt_of_valid {capacity : Nat} {g : Frame} {a : Accumulator}
    (h : (reasmStep capacity g a).1.valid = true) : (reasmStep capacity g a).1.pkt ≠ 0 := by
  have hfinish (b : Accumulator) (hb : (reasmFinish b).1.valid = true) : (reasmFinish b).1.pkt ≠ 0 := by
    rcases reasmFinish_cases b with ⟨_, hs⟩ | ⟨hpkt, hs⟩ <;> rw [hs] at hb ⊢
    · exact absurd hb nofun
    · exact hpkt
  rcases reasmStep_cases capacity g a with ⟨_, hs⟩ | ⟨_, _, hs⟩ | ⟨_, _, _, _, _, _, hs⟩ | ⟨_, _, _, _, _, _, hs⟩ <;>
    rw [hs] at h ⊢
  · exact hfinish _ h
  · exact absurd h nofun
  · exact absurd h nofun
  · exact hfinish _ h

theorem sequencerSound_reasmState (f : Frame) {s : State} (h : SequencerSound s)
    (hmux : s.seq.muxState = .awaitUni ∨ s.seq.muxState = .awaitGather) : SequencerSound (reasmState f s) :=
  ⟨h.fits, h.abortInTx, h.busyNotDone, h.holdValid, fun hvalid => ⟨hmux, reasmStep_pkt_of_valid hvalid⟩⟩

/-- A conclusion with the result registers written completes ENUMERATE or holds a POLL's result (R123). -/
theorem sequencerSound_concludeOp (c : Code) {s : State} (h : SequencerSound s) (hmux : s.seq.muxState = .awaitUni)
    (hresult : s.resp.valid = true) : SequencerSound (concludeOp c s) := by
  rcases concludeOp_cases c s with ⟨_, hs⟩ | ⟨hop, hs⟩ <;> rw [hs]
  · exact sequencerSound_complete _ _
  · have hpoll : s.seq.curOp = .poll := (h.curOp_of_awaitUni hmux).resolve_left hop
    refine ⟨by simp [sequencerFits, hpoll], fun habort => ?_, fun _ => h.not_done (by simp [hmux]),
      fun _ => hresult, nofun⟩
    exact absurd (habort.symm.trans (h.no_abort (by simp [hmux]))) nofun

/-- Marking the result registers valid keeps the sequencer sound. -/
theorem SequencerSound.of_result {s t : State} (h : SequencerSound s) (hresult : t.resp.valid = true)
    (hseq : t.seq = s.seq) (hacc : t.acc = s.acc) (hctl : t.ctl = s.ctl) : SequencerSound t := by
  have hs : SequencerSound { s with resp := { s.resp with valid := true } } :=
    ⟨h.fits, h.abortInTx, h.busyNotDone, fun _ => rfl, h.accOnlyInAwait⟩
  exact hs.of_fields_eq (by rw [sequencerFields, hseq, hacc, hctl, hresult]; rfl)

theorem sequencerSound_concludeFailure (c : Code) {s : State} (h : SequencerSound s)
    (hmux : s.seq.muxState = .awaitUni) : SequencerSound (concludeFailure c s) :=
  sequencerSound_concludeOp c (h.of_result (t := storeFailure c s) rfl rfl rfl rfl) hmux rfl

theorem sequencerSound_uniResult (res : ReasmResult) {s : State} (h : SequencerSound s)
    (hmux : s.seq.muxState = .awaitUni) : SequencerSound (uniResult res s) := by
  cases res with
  | pending => exact h
  | complete r =>
    exact sequencerSound_concludeOp .ok (h.of_result (t := storeResponse r s) rfl rfl rfl rfl) hmux rfl
  | inconsistent => exact sequencerSound_concludeFailure _ h hmux
  | overflow => exact sequencerSound_concludeFailure _ h hmux

/-- The gather writes neither the sequencer nor what its soundness reads besides (R124 to R126). -/
theorem sequencerFields_gatherResult (res : ReasmResult) (s : State) :
    sequencerFields (gatherResult res s) = sequencerFields s := by
  cases res with
  | complete r =>
    rw [gatherResult, gatherResponse]
    split
    · rcases gatherInsert_cases r.src (payloadSerial r.payload) (payloadTag r.payload) s with
        ⟨_, _, h⟩ | ⟨_, _, h⟩ | ⟨_, _, h⟩ <;> rw [h] <;> rfl
    · rfl
  | pending | inconsistent | overflow => rfl

theorem sequencerSound_deliver (f : Frame) {s : State} (h : SequencerSound s) : SequencerSound (deliver f s) := by
  rcases deliver_cases f s with ⟨hmux, hs⟩ | ⟨hmux, hs⟩ | ⟨_, _, hs⟩ <;> rw [hs]
  · exact sequencerSound_uniResult _ (sequencerSound_reasmState f h (.inl hmux)) hmux
  · exact (sequencerSound_reasmState f h (.inr hmux)).of_fields_eq (sequencerFields_gatherResult _ _)
  · exact h.of_fields_eq rfl

/-! ### The other link events -/

theorem sequencerSound_rxTimeout {s : State} (h : SequencerSound s) : SequencerSound (doRxTimeout s) := by
  rcases doRxTimeout_cases s with ⟨_, hmux, hs⟩ | ⟨_, _, _, hs⟩ | ⟨_, _, _, hs⟩ | ⟨_, hs⟩ <;> rw [hs]
  · exact sequencerSound_concludeFailure _ h hmux
  · exact sequencerSound_complete _ _
  · exact sequencerSound_complete _ _
  · exact h

theorem sequencerSound_linkError {s : State} (h : SequencerSound s) : SequencerSound (doLinkError s) := by
  rcases doLinkError_cases s with ⟨_, hs⟩ | ⟨_, hs⟩ <;> rw [hs]
  · exact sequencerSound_complete _ _
  · exact h.of_fields_eq rfl

/-! ### Every step -/

theorem sequencerSound_of_eventCases {s t : State} {e : Event} (h : SequencerSound s) (hevent : EventCases s t e) :
    SequencerSound t := by
  cases e with
  | hostRead off => obtain rfl := hevent; exact h.of_fields_eq rfl
  | hostWrite off w =>
    rcases hevent with ⟨_, hexec⟩ | ⟨_, rfl⟩
    · exact sequencerSound_of_command h hexec
    · exact sequencerSound_writeReg w h _
  | reset => obtain rfl := hevent; exact sequencerSound_resetState s
  | blockStep => obtain rfl := hevent; exact sequencerSound_blockStep h
  | rxByte b => obtain rfl := hevent; exact h.of_fields_eq rfl
  | rxQuiet =>
    rcases hevent with ⟨_, rfl⟩ | ⟨err, _, _, rfl⟩ | ⟨f, _, _, rfl⟩
    · exact h
    · cases err <;> exact h.of_fields_eq rfl
    · exact sequencerSound_deliver f (h.of_fields_eq rfl)
  | rxTimeout => obtain rfl := hevent; exact sequencerSound_rxTimeout h
  | settleElapsed =>
    rcases hevent with ⟨_, rfl⟩ | ⟨hmux, rfl⟩
    · exact h
    · exact sequencerSound_pollSlot _ (h.curOp_of_poll_state (.inl hmux)) (h.not_done (by simp [hmux]))
        (h.acc_empty (by simp [hmux]) (by simp [hmux]))
  | linkError => obtain rfl := hevent; exact sequencerSound_linkError h

/-- Settles O53: the block's turn and each event keep the sequencer sound. -/
theorem everyStepKeepsSequencerSound : Obligations.EveryStepKeepsSequencerSound := by
  unfold Obligations.EveryStepKeepsSequencerSound
  intro s t h hstep
  rcases step_cases hstep with ⟨_, rfl⟩ | ⟨e, rest, _, hevent⟩
  · exact sequencerSound_blockStep h
  · exact sequencerSound_of_eventCases (s := setInputs rest s) (h.of_fields_eq rfl) hevent

end Sys2Proof.Machine
end

section
/-! SUPPORT. `StartTx` as the statements describe it, and the operations that start a request from IDLE (42_multiplexer
R102 to R106, R112 to R114); with them O33, O25, O26 and O27. -/

namespace Sys2Proof.Machine

/-! ### StartTx -/

/-- `StartTx` of a request frame puts the whole frame at the start of a canonical `tx_buf` (R102). -/
theorem startsFrame_startTx {frame : List Byte} {s : State} (hwf : Memory.wf s.tx.buf = true)
    (hframe : RequestFrame frame) (next : TxNext) : StartsFrame frame next s (startTx frame next s) := by
  have hlen : (startTx frame next s).tx.len.toNat = frame.length := Nat.mod_eq_of_lt hframe.short
  have hbytes : txFrame (startTx frame next s) = frame := by
    rw [txFrame, hlen]
    exact Memory.readBytes_writeBytes hwf 0 frame
  have hrest : ∀ a, frame.length ≤ a →
      Memory.read (startTx frame next s).tx.buf a = Memory.read s.tx.buf a :=
    fun a ha => Memory.read_writeBytes_outside _ _ _ (.inr (by rwa [Nat.zero_add]))
  exact ⟨rfl, rfl, hlen, hbytes, hrest, rfl, rfl, rfl, rfl, rfl, rfl, rfl, rfl⟩

/-- Settles O33: each row is `StartTx` of its own request frame. -/
theorem requestRowsStartTheirFrames : Obligations.RequestRowsStartTheirFrames := by
  unfold Obligations.RequestRowsStartTheirFrames
  intro s hwf
  exact ⟨⟨_, rfl, startsFrame_startTx hwf requestFrame_netStart _⟩,
    fun dst => ⟨_, rfl, startsFrame_startTx hwf (requestFrame_cinfo dst) _⟩,
    fun time => ⟨_, rfl, startsFrame_startTx hwf (requestFrame_syn time) _⟩,
    fun dst type1 type2 index => ⟨_, rfl, startsFrame_startTx hwf (requestFrame_data dst type1 type2 index) _⟩⟩

/-! ### The operations that an idle block accepts -/

theorem whenIdle_of_idle (act : State → State) {s : State} (h : s.seq.muxState = .idle) :
    whenIdle act s = act s := by
  rw [whenIdle, h]

@[simp] theorem clearTables_tab_crt (s : State) : (clearTables s).tab.crt =
    s.tab.crt.map fun row => row.map fun slot => { slot with valid := false } := rfl

/-- DISCOVER clears the `valid` bit of every slot and keeps its other fields (R112). -/
theorem slotAt_clearTables (s : State) (i k : Nat) :
    slotAt (clearTables s) i k = { slotAt s i k with valid := false } := by
  have hrow : slotRow (clearTables s) i = (slotRow s i).map fun slot => { slot with valid := false } := by
    rw [slotRow, slotRow, clearTables_tab_crt, Vector.getElem?_map]
    cases s.tab.crt[i]? with
    | none => simp [Slot.zero]
    | some row => rfl
  rw [slotAt, hrow, Vector.getElem?_map, slotAt]
  cases (slotRow s i)[k]? <;> rfl

/-- Settles O25: the state between is that of `clearTables`, from which the discovery request starts. -/
theorem discoverStartsTheGather : Obligations.DiscoverStartsTheGather := by
  unfold Obligations.DiscoverStartsTheGather
  intro s hidle hwf
  refine ⟨clearTables (accept .discover s), discoverIdle s, ?_,
    startsFrame_startTx (s := clearTables (accept .discover s)) hwf requestFrame_netStart _, rfl,
    deviceAt_replicate_zero rfl, slotAt_clearTables (accept .discover s), rfl⟩
  exact congrArg _ (whenIdle_of_idle discoverIdle hidle)

/-- ENUMERATE's operand is the low byte of ARG (R113). -/
theorem argDeviceIndex_eq (s : State) : argDeviceIndex s = s.ctl.arg.toNat % 256 := by
  simp [argDeviceIndex]

/-- Settles O26: the two cases of `enumerateIdle_cases`. -/
theorem enumerateRequestsOrRejects : Obligations.EnumerateRequestsOrRejects := by
  unfold Obligations.EnumerateRequestsOrRejects
  intro s hidle hwf
  have hexec : exec .enumerate s = .next (enumerateIdle s) := congrArg _ (whenIdle_of_idle enumerateIdle hidle)
  rw [← argDeviceIndex_eq, hexec]
  rcases enumerateIdle_cases s with ⟨hout, hs⟩ | ⟨hin, hs⟩ <;> rw [hs]
  · exact ⟨fun hin => absurd hout (Nat.not_le_of_lt hin), fun _ => rfl⟩
  · refine ⟨fun _ => ⟨_, rfl, ?_⟩, fun hout => absurd hout (Nat.not_le_of_lt hin)⟩
    exact startsFrame_startTx (s := latchDevice _ (accept .enumerate s)) hwf (requestFrame_cinfo _) _

/-- Settles O27: the synchronisation request starts from the state with the poll time latched. -/
theorem pollBroadcastsItsTime : Obligations.PollBroadcastsItsTime := by
  unfold Obligations.PollBroadcastsItsTime
  intro s hidle hwf
  exact ⟨pollIdle s, congrArg _ (whenIdle_of_idle pollIdle hidle),
    startsFrame_startTx (s := latchPoll (argPollTime s) (accept .poll s)) hwf (requestFrame_syn _) _⟩

end Sys2Proof.Machine
end

section
/-! SUPPORT. The slot order (42_multiplexer R128): the loop, with fuel enough, answers the smallest requested slot from
where it starts; with it O47. -/

namespace Sys2Proof.Machine

/-- The loop reaches a requested slot at or after its start, or a smaller one. The fuel pays for nine turns a device. -/
theorem scanSlots_of_requested {s : State} {fuel d k d' k' : Nat} (hreq : requestedSlot s d' k')
    (hafter : ¬slotBefore d' k' d k) (hk : k ≤ 8) (hfuel : 9 * (s.tab.devCount.toNat - d) < fuel + k) :
    ∃ d₁ k₁, scanSlots s fuel d k = some (d₁, k₁) ∧ ¬slotBefore d' k' d₁ k₁ := by
  obtain ⟨hd', hk', hvalid⟩ := hreq
  have hslots : nSlots = 8 := rfl
  rw [slotBefore] at hafter
  induction fuel generalizing d k with
  | zero => omega
  | succ fuel ih =>
    have hd : d < s.tab.devCount.toNat := by omega
    rw [scanSlots, if_pos hd]
    by_cases hlast : k < nSlots
    · rw [if_pos hlast]
      by_cases hv : (slotAt s d k).valid = true
      · rw [if_pos hv]
        exact ⟨d, k, rfl, hafter⟩
      · have hne : ¬(d = d' ∧ k = k') := by
          rintro ⟨rfl, rfl⟩
          exact hv hvalid
        rw [if_neg hv]
        exact ih (by omega) (by omega) (by omega)
    · rw [if_neg hlast]
      exact ih (by omega) (by omega) (by omega)

/-- What the loop answers is requested and not before its start. -/
theorem requestedSlot_of_scanSlots {s : State} {fuel d k d' k' : Nat} (h : scanSlots s fuel d k = some (d', k')) :
    requestedSlot s d' k' ∧ ¬slotBefore d' k' d k := by
  obtain ⟨hd, hk, hvalid, hafter⟩ := scanSlots_some h
  rw [slotBefore]
  exact ⟨⟨hd, hk, hvalid⟩, by omega⟩

/-- `dev_count` has 5 bits, so `scanFuel` is enough from any start. -/
theorem scanFuel_suffices (s : State) (d k : Nat) : 9 * (s.tab.devCount.toNat - d) < scanFuel + k := by
  have := s.tab.devCount.isLt
  rw [scanFuel]
  omega

/-- The loop answers the smallest requested slot from its start on. -/
theorem not_slotBefore_of_scanSlots {s : State} {d k d₁ k₁ d' k' : Nat} (hk : k ≤ 8)
    (h : scanSlots s scanFuel d k = some (d₁, k₁)) (hreq : requestedSlot s d' k') (hafter : ¬slotBefore d' k' d k) :
    ¬slotBefore d' k' d₁ k₁ := by
  obtain ⟨d₂, k₂, hscan, hle⟩ := scanSlots_of_requested hreq hafter hk (scanFuel_suffices s d k)
  obtain ⟨rfl, rfl⟩ : d₁ = d₂ ∧ k₁ = k₂ := by simpa using h.symm.trans hscan
  exact hle

/-- The loop ends without an answer only when no slot from its start on is requested. -/
theorem slotBefore_of_scanSlots_none {s : State} {d k d' k' : Nat} (hk : k ≤ 8)
    (h : scanSlots s scanFuel d k = none) (hreq : requestedSlot s d' k') : slotBefore d' k' d k := by
  by_contra hafter
  obtain ⟨d₁, k₁, hscan, _⟩ := scanSlots_of_requested hreq hafter hk (scanFuel_suffices s d k)
  exact absurd (h.symm.trans hscan) nofun

/-- A slot is after `(d₀, k₀)` when it is not before the place the loop of `NextSlot` starts at. -/
theorem slotBefore_iff_not_slotBefore_succ {d₀ k₀ d k : Nat} :
    slotBefore d₀ k₀ d k ↔ ¬slotBefore d k d₀ (k₀ + 1) := by
  rw [slotBefore, slotBefore]
  omega

theorem not_slotBefore_zero (d k : Nat) : ¬slotBefore d k 0 0 := by
  rw [slotBefore]
  omega

/-- Settles O47: `NextSlot` is the loop from the next place on, `FirstSlot` from the first. -/
theorem nextSlotIsTheSmallestLater : Obligations.NextSlotIsTheSmallestLater := by
  unfold Obligations.NextSlotIsTheSmallestLater
  refine fun s => ⟨fun d₀ k₀ hk => ⟨fun d k h => ?_, fun h d' k' hreq hlater => ?_⟩, fun d k h => ?_,
    fun h d' k' hreq => ?_⟩
  · obtain ⟨hreq, hafter⟩ := requestedSlot_of_scanSlots h
    exact ⟨hreq, slotBefore_iff_not_slotBefore_succ.mpr hafter, fun d' k' hreq' hlater =>
      not_slotBefore_of_scanSlots hk h hreq' (slotBefore_iff_not_slotBefore_succ.mp hlater)⟩
  · exact slotBefore_iff_not_slotBefore_succ.mp hlater (slotBefore_of_scanSlots_none hk h hreq)
  · obtain ⟨hreq, _⟩ := requestedSlot_of_scanSlots h
    exact ⟨hreq, fun d' k' hreq' => not_slotBefore_of_scanSlots (by omega) h hreq' (not_slotBefore_zero d' k')⟩
  · exact not_slotBefore_zero d' k' (slotBefore_of_scanSlots_none (by omega) h hreq)

end Sys2Proof.Machine
end

section
/-! SUPPORT. What the host operations do in each state of the sequencer (42_multiplexer R109 to R118), and how a POLL
goes on (R115, R129); with them O24, O28, O29, O31, O32 and O12. -/

namespace Sys2Proof.Machine

/-- Settles O24. -/
theorem nopChangesNoState : Obligations.NopChangesNoState := by
  unfold Obligations.NopChangesNoState
  exact fun s => rfl

/-! ### Refusals -/

/-- A busy block refuses an operation that only an idle one accepts (R109, R110). -/
theorem whenIdle_of_busy (act : State → State) {s : State} (h : s.seq.muxState ≠ .idle) :
    whenIdle act s = refuse s := by
  rcases whenIdle_cases act s with ⟨hidle, _⟩ | ⟨_, hs⟩
  · exact absurd hidle h
  · exact hs

theorem reservedOp_of_busy {s : State} (h : s.seq.muxState ≠ .idle) : reservedOp s = refuse s := by
  rcases reservedOp_cases s with ⟨hidle, _⟩ | ⟨_, hs⟩
  · exact absurd hidle h
  · exact hs

theorem reservedOp_of_idle {s : State} (h : s.seq.muxState = .idle) :
    reservedOp s = complete .badOp (accept .none s) := by
  rw [reservedOp, h]

/-- Settles O32: the three operations are `whenIdle` of their work, the reserved rows `reservedOp`. -/
theorem busyBlockRefusesCommands : Obligations.BusyBlockRefusesCommands := by
  unfold Obligations.BusyBlockRefusesCommands
  intro i hi s hbusy
  rcases List.mem_append.mp hi with hi | hreserved
  · simp only [List.mem_cons, List.not_mem_nil, or_false] at hi
    rcases hi with rfl | rfl | rfl
    · exact congrArg _ (whenIdle_of_busy discoverIdle hbusy)
    · exact congrArg _ (whenIdle_of_busy enumerateIdle hbusy)
    · exact congrArg _ (whenIdle_of_busy pollIdle hbusy)
  · rw [exec_reservedRow hreserved, reservedOp_of_busy hbusy]
    rfl

/-- Settles O31: the nine rows are `reservedOp`. -/
theorem reservedOperationIsBadOp : Obligations.ReservedOperationIsBadOp := by
  unfold Obligations.ReservedOperationIsBadOp
  intro i hi s hidle
  rw [exec_reservedRow hi, reservedOp_of_idle hidle]
  rfl

/-! ### ABORT -/

/-- Settles O29: the three cases of `execAbort_cases`, by the state's name. -/
theorem abortEndsOrIsDeferred : Obligations.AbortEndsOrIsDeferred := by
  unfold Obligations.AbortEndsOrIsDeferred
  intro s
  rcases execAbort_cases s with ⟨hmux, hs⟩ | ⟨hmux, hs⟩ | ⟨hidle, htx, hs⟩
  · exact ⟨by simp [hmux], by simp [hmux], fun _ => hs⟩
  · exact ⟨fun _ => hs, by simp [hmux], by simp [hmux]⟩
  · exact ⟨fun h => absurd h htx, fun _ => hs, fun h => absurd h hidle⟩

/-! ### The POLL's next slot -/

/-- The loop of R128 reads the tables alone. -/
theorem scanSlots_congr {s t : State} (h : t.tab = s.tab) (fuel d k : Nat) :
    scanSlots t fuel d k = scanSlots s fuel d k := by
  have hslot : slotAt t = slotAt s := by
    funext i j
    rw [slotAt, slotRow, h, slotAt, slotRow]
  induction fuel generalizing d k with
  | zero => rfl
  | succ fuel ih => rw [scanSlots, scanSlots, h, hslot, ih, ih]

/-- Settles O28: the three cases of `execContinuePoll_cases`, and in HOLD those of `pollSlot` (R115). -/
theorem continueReleasesTheHeldResult : Obligations.ContinueReleasesTheHeldResult := by
  unfold Obligations.ContinueReleasesTheHeldResult
  intro s
  rcases execContinuePoll_cases s with ⟨hmux, hs⟩ | ⟨hmux, hs⟩ | ⟨hidle, hhold, hs⟩
  · exact ⟨by simp [hmux], by simp [hmux], fun _ => hs, by simp [hmux]⟩
  · refine ⟨fun _ hnone => ?_, fun d k _ hnext hwf => ⟨continueHeld s, hs, ?_⟩, by simp [hmux], by simp [hmux]⟩
    · refine hs.trans (congrArg _ ?_)
      rw [continueHeld, hnone]
      rfl
    · rw [continueHeld, hnext]
      exact startsFrame_startTx (s := setCursor d k { s with resp := { s.resp with valid := false } }) hwf
        (requestFrame_data _ _ _ _) _
  · exact ⟨fun h => absurd h hhold, fun _ _ h => absurd h hhold, fun h => absurd h hidle, fun _ _ => hs⟩

/-- Settles O12: the schedule has no part in `firstSlot`, and `fetchSettle` gives both outcomes. -/
theorem settleElapsedStartsTheFirstSlot : Obligations.SettleElapsedStartsTheFirstSlot := by
  unfold Obligations.SettleElapsedStartsTheFirstSlot
  intro s rest h hmux
  have hfirst : firstSlot (setInputs rest s) = firstSlot s := by
    rw [firstSlot, firstSlot, scanSlots_congr (setInputs_tab rest s)]
  have hmux : (setInputs rest s).seq.muxState = .settle := hmux
  rw [step_of_event h, fetchEvent, fetchSettle, hmux, hfirst]
  refine ⟨fun hnone => ?_, fun d k hsome => ?_⟩
  · rw [hnone]
    rfl
  · rw [hsome]
    rfl

end Sys2Proof.Machine
end

section
/-! SUPPORT. The link events that run no instruction (42_multiplexer R122, R127, R132, R133, 40_frame_codec R89); with
them O48, O49 and O50. -/

namespace Sys2Proof.Machine

/-! ### Empty reads -/

theorem step_of_rxTimeout {s : State} {rest : List Event} (h : s.env.inputs = .rxTimeout :: rest) :
    step s = .next (doRxTimeout (setInputs rest s)) := by
  rw [step_of_event h]
  rfl

/-- An empty read ends a unicast await with NO_RESPONSE (R122). -/
theorem doRxTimeout_of_awaitUni {s : State} (hclosed : s.rx.state = .idle) (hmux : s.seq.muxState = .awaitUni) :
    doRxTimeout s = concludeFailure .noResponse s := by
  rw [doRxTimeout, hclosed, hmux]

/-- An empty read ends the gather, which was in vain when it found no device (R127). -/
theorem doRxTimeout_of_awaitGather {s : State} (hclosed : s.rx.state = .idle)
    (hmux : s.seq.muxState = .awaitGather) :
    doRxTimeout s = complete (if s.tab.devCount = 0 then .discoveryEmpty else .ok) s := by
  rw [doRxTimeout, hclosed, hmux]
  exact (apply_ite (fun c => complete c s) _ _ _).symm

/-- Settles O48: `doRxTimeout` in the two awaits, and in the unicast one the end of `conclude` (R123). -/
theorem timeoutEndsTheAwait : Obligations.TimeoutEndsTheAwait := by
  unfold Obligations.TimeoutEndsTheAwait
  intro s rest h hclosed
  rw [step_of_rxTimeout h]
  refine ⟨fun hmux hop => ?_, fun hmux hop => ?_, fun hmux => ?_⟩
  · rw [doRxTimeout_of_awaitUni (s := setInputs rest s) hclosed hmux,
      concludeFailure_of_enumerate (s := setInputs rest s) _ hop]
    rfl
  · rw [doRxTimeout_of_awaitUni (s := setInputs rest s) hclosed hmux,
      concludeFailure_of_poll (s := setInputs rest s) _ hop]
    rfl
  · rw [doRxTimeout_of_awaitGather (s := setInputs rest s) hclosed hmux, complete, apply_ite Code.bits]
    rfl

/-! ### Events out of contract -/

/-- An empty read that no await is open for changes nothing (R133). -/
theorem doRxTimeout_of_unawaited {s : State}
    (h : (s.seq.muxState ≠ .awaitUni ∧ s.seq.muxState ≠ .awaitGather) ∨ s.rx.state ≠ .idle) : doRxTimeout s = s := by
  rcases doRxTimeout_cases s with ⟨hclosed, hmux, _⟩ | ⟨hclosed, hmux, _, _⟩ | ⟨hclosed, hmux, _, _⟩ | ⟨_, hs⟩
  case inr.inr.inr => exact hs
  all_goals simp [hclosed, hmux] at h

/-- The end of a settle wait that is not on changes nothing (R133). -/
theorem fetchSettle_of_not_settle {s : State} (h : s.seq.muxState ≠ .settle) : fetchSettle s = .settled s := by
  unfold fetchSettle
  split
  case h_1 hmux => exact absurd hmux h
  all_goals rfl

/-- Settles O49: each of the three events leaves the state with the event taken. -/
theorem eventsOutOfContractChangeNothing : Obligations.EventsOutOfContractChangeNothing := by
  unfold Obligations.EventsOutOfContractChangeNothing
  refine fun s rest => ⟨fun h hout => ?_, fun h hmux => ?_, fun h hclosed => ?_⟩
  · rw [step_of_rxTimeout h, doRxTimeout_of_unawaited (s := setInputs rest s) hout]
    rfl
  · rw [step_of_event h, fetchEvent, fetchSettle_of_not_settle (s := setInputs rest s) hmux]
    rfl
  · have hclosed : (setInputs rest s).rx.state = .idle := hclosed
    rw [step_of_event h, fetchEvent, fetchRxQuiet, if_pos hclosed]
    rfl

/-! ### The link error -/

theorem step_of_linkError {s : State} {rest : List Event} (h : s.env.inputs = .linkError :: rest) :
    step s = .next (doLinkError (setInputs rest s)) := by
  rw [step_of_event h]
  rfl

/-- Settles O50: the two cases of `doLinkError_cases` (R132). -/
theorem linkErrorEndsTheOperation : Obligations.LinkErrorEndsTheOperation := by
  unfold Obligations.LinkErrorEndsTheOperation
  intro s rest h
  rw [step_of_linkError h]
  rcases doLinkError_cases (setInputs rest s) with ⟨hbusy, hs⟩ | ⟨hidle, hs⟩
  · have hmux : s.seq.muxState ≠ .idle := by simpa [busy] using hbusy
    exact ⟨fun hidle => absurd hidle hmux, fun _ => congrArg _ hs⟩
  · have hmux : s.seq.muxState = .idle := by simpa [busy] using hidle
    exact ⟨fun _ => congrArg _ hs, fun hbusy => absurd hmux hbusy⟩

end Sys2Proof.Machine
end

section
/-! SUPPORT. What keeps the operands of a running operation on discovered devices (42_multiplexer R113, R115, R128,
R129), operation by operation: only ENUMERATE and the POLL's next slot latch a device, each one it has checked, and `dev_count`
changes only while neither runs; with it O57. -/

namespace Sys2Proof.Machine

/-! ### What soundness reads -/

/-- What `CursorSound` reads of a state. -/
def cursorFields (s : State) : CurOp × TxNext × BitVec 4 × BitVec 5 × BitVec 5 :=
  (s.seq.curOp, s.seq.txNext, s.seq.enumD, s.seq.pollD, s.tab.devCount)

theorem CursorSound.of_fields_eq {s t : State} (h : CursorSound s) (heq : cursorFields t = cursorFields s) :
    CursorSound t := by
  simp only [cursorFields, Prod.mk.injEq] at heq
  obtain ⟨op, next, enumD, pollD, count⟩ := heq
  exact ⟨op ▸ enumD ▸ count ▸ h.enumerate, op ▸ next ▸ pollD ▸ count ▸ h.poll⟩

/-- With neither ENUMERATE nor POLL running no operand has to name a device. -/
theorem CursorSound.of_no_operand {s : State} (henumerate : s.seq.curOp ≠ .enumerate) (hpoll : s.seq.curOp ≠ .poll) :
    CursorSound s := ⟨fun hop => absurd hop henumerate, fun hop => absurd hop hpoll⟩

theorem cursorSound_complete (c : Code) (s : State) : CursorSound (complete c s) := .of_no_operand nofun nofun

theorem cursorSound_resetState (s : State) : CursorSound (resetState s) := .of_no_operand nofun nofun

theorem cursorSound_refuse {s : State} (h : CursorSound s) : CursorSound (refuse s) := h.of_fields_eq rfl

/-! ### Latching a device -/

/-- ENUMERATE latches an index below `dev_count`, which 4 bits hold in a sound table (R22, R113). -/
theorem cursorSound_enumerateIdle {s : State} (htable : DeviceTableSound s) : CursorSound (enumerateIdle s) := by
  rcases enumerateIdle_cases s with ⟨_, hs⟩ | ⟨hknown, hs⟩ <;> rw [hs]
  · exact cursorSound_complete _ _
  · refine ⟨fun _ => ?_, nofun⟩
    have hmax := maxDevices_le s.params
    have hcount := htable.count
    change (BitVec.ofNat 4 (argDeviceIndex s)).toNat < s.tab.devCount.toNat
    rw [BitVec.toNat_ofNat, Nat.mod_eq_of_lt (by omega)]
    exact hknown

/-- A POLL goes on to a slot of a discovered device, whose index 5 bits hold, or completes (R115, R128, R129). -/
theorem cursorSound_pollSlot {slot : Option (Nat × Nat)} {s : State} (hop : s.seq.curOp = .poll)
    (hslot : ∀ d k, slot = some (d, k) → d < s.tab.devCount.toNat) : CursorSound (pollSlot slot s) := by
  rcases pollSlot_cases slot s with ⟨_, hs⟩ | ⟨d, k, hsome, hs⟩ <;> rw [hs]
  · exact cursorSound_complete _ _
  · refine ⟨fun henumerate => absurd (hop.symm.trans henumerate) nofun, fun _ _ => ?_⟩
    have hd := hslot d k hsome
    have hcount := s.tab.devCount.isLt
    change (BitVec.ofNat 5 d).toNat < s.tab.devCount.toNat
    rw [BitVec.toNat_ofNat, Nat.mod_eq_of_lt (by omega)]
    exact hd

/-- The loop of R128 answers a slot of a discovered device. -/
theorem lt_devCount_of_scanSlots {s : State} {fuel d₀ k₀ d k : Nat} (h : scanSlots s fuel d₀ k₀ = some (d, k)) :
    d < s.tab.devCount.toNat := by
  obtain ⟨hd, _⟩ := scanSlots_some h
  exact hd

/-! ### Host operations -/

theorem cursorSound_whenIdle {act : State → State} {s : State} (h : CursorSound s) (hact : CursorSound (act s)) :
    CursorSound (whenIdle act s) := by
  rcases whenIdle_cases act s with ⟨_, hs⟩ | ⟨_, hs⟩ <;> rw [hs]
  · exact hact
  · exact cursorSound_refuse h

theorem cursorSound_reservedOp {s : State} (h : CursorSound s) : CursorSound (reservedOp s) := by
  rcases reservedOp_cases s with ⟨_, hs⟩ | ⟨_, hs⟩ <;> rw [hs]
  · exact cursorSound_complete _ _
  · exact cursorSound_refuse h

theorem cursorSound_of_execContinuePoll {s t : State} (h : CursorSound s) (hseq : SequencerSound s)
    (hexec : execContinuePoll s = .next t) : CursorSound t := by
  rcases execContinuePoll_cases s with ⟨_, hs⟩ | ⟨hmux, hs⟩ | ⟨_, _, hs⟩ <;>
    obtain rfl := Host.Outcome.next.inj (hs.symm.trans hexec)
  · exact cursorSound_complete _ _
  · exact cursorSound_pollSlot (s := { s with resp := { s.resp with valid := false } })
      (hseq.curOp_of_poll_state (.inr hmux)) fun d k hnext => lt_devCount_of_scanSlots (s := s) hnext
  · exact cursorSound_refuse h

theorem cursorSound_of_execAbort {s t : State} (h : CursorSound s) (hexec : execAbort s = .next t) :
    CursorSound t := by
  rcases execAbort_cases s with ⟨_, hs⟩ | ⟨_, hs⟩ | ⟨_, _, hs⟩ <;>
    obtain rfl := Host.Outcome.next.inj (hs.symm.trans hexec)
  · exact h
  · exact h.of_fields_eq rfl
  · exact cursorSound_complete _ _

/-- DISCOVER has no operand, and a POLL latches its first device only after the settle wait (R112, R114). -/
theorem cursorSound_of_command {w : Word} {s t : State} (h : CursorSound s) (hseq : SequencerSound s)
    (htable : DeviceTableSound s) (hexec : exec (decodeCommand w) s = .next t) : CursorSound t := by
  rcases command_cases w s with hs | hs | hs | hs | hs | hs | hs | hs <;> rw [hs] at hexec
  case inr.inr.inr.inr.inl => exact cursorSound_of_execContinuePoll h hseq hexec
  case inr.inr.inr.inr.inr.inl => exact cursorSound_of_execAbort h hexec
  all_goals obtain rfl := Host.Outcome.next.inj hexec
  · exact h
  · exact cursorSound_whenIdle h (.of_no_operand nofun nofun)
  · exact cursorSound_whenIdle h (cursorSound_enumerateIdle htable)
  · exact cursorSound_whenIdle h ⟨nofun, nofun⟩
  · exact cursorSound_reservedOp h
  · exact cursorSound_resetState s

/-- No register but CMD reaches the operands or `dev_count` (20_memory R31). -/
theorem cursorFields_writeReg (w : Word) (s : State) (r : HostReg) :
    cursorFields (writeReg w s r) = cursorFields s := by
  cases r with
  | arg | crt =>
    rw [writeReg]
    split <;> rfl
  | _ => rfl

/-! ### The block's turn and the link events -/

theorem cursorSound_blockStep {s : State} (h : CursorSound s) : CursorSound (blockStep s) := by
  rcases blockStep_cases s with ⟨_, hs⟩ | ⟨_, _, hs⟩ | ⟨_, _, _, hs⟩ | ⟨_, _, _, hs⟩ <;> rw [hs]
  · exact h
  · exact h.of_fields_eq rfl
  · exact cursorSound_complete _ _
  · rcases enterNext_cases (emitByte s) with ⟨_, hn⟩ | ⟨_, hn⟩ | ⟨_, hn⟩ <;> rw [hn] <;> exact h.of_fields_eq rfl

/-- A conclusion completes ENUMERATE, or holds a POLL with its cursor as it is (R123). -/
theorem cursorSound_concludeOp (c : Code) {s : State} (h : CursorSound s) : CursorSound (concludeOp c s) := by
  rcases concludeOp_cases c s with ⟨_, hs⟩ | ⟨_, hs⟩ <;> rw [hs]
  · exact cursorSound_complete _ _
  · exact h.of_fields_eq rfl

theorem cursorSound_concludeFailure (c : Code) {s : State} (h : CursorSound s) :
    CursorSound (concludeFailure c s) :=
  cursorSound_concludeOp c (h.of_fields_eq (t := storeFailure c s) rfl)

theorem cursorSound_uniResult (res : ReasmResult) {s : State} (h : CursorSound s) : CursorSound (uniResult res s) := by
  cases res with
  | pending => exact h
  | complete r => exact cursorSound_concludeOp .ok (h.of_fields_eq (t := storeResponse r s) rfl)
  | inconsistent => exact cursorSound_concludeFailure _ h
  | overflow => exact cursorSound_concludeFailure _ h

/-- The gather belongs to DISCOVER (R101). -/
theorem SequencerSound.curOp_of_awaitGather {s : State} (h : SequencerSound s)
    (hmux : s.seq.muxState = .awaitGather) : s.seq.curOp = .discover := by
  simpa [sequencerFits, hmux] using h.fits

/-- `dev_count` moves only in the gather, where DISCOVER runs (R124 to R126). -/
theorem cursorSound_deliver (f : Frame) {s : State} (h : CursorSound s) (hseq : SequencerSound s) :
    CursorSound (deliver f s) := by
  rcases deliver_cases f s with ⟨_, hs⟩ | ⟨hmux, hs⟩ | ⟨_, _, hs⟩ <;> rw [hs]
  · exact cursorSound_uniResult _ (h.of_fields_eq rfl)
  · have hsame : (gatherResult (reasmAnswer f s) (reasmState f s)).seq = s.seq :=
      congrArg Prod.fst (sequencerFields_gatherResult (reasmAnswer f s) (reasmState f s))
    have hop := hseq.curOp_of_awaitGather hmux
    exact .of_no_operand (by simp [hsame, hop]) (by simp [hsame, hop])
  · exact h.of_fields_eq rfl

theorem cursorSound_rxTimeout {s : State} (h : CursorSound s) : CursorSound (doRxTimeout s) := by
  rcases doRxTimeout_cases s with ⟨_, _, hs⟩ | ⟨_, _, _, hs⟩ | ⟨_, _, _, hs⟩ | ⟨_, hs⟩ <;> rw [hs]
  · exact cursorSound_concludeFailure _ h
  · exact cursorSound_complete _ _
  · exact cursorSound_complete _ _
  · exact h

theorem cursorSound_linkError {s : State} (h : CursorSound s) : CursorSound (doLinkError s) := by
  rcases doLinkError_cases s with ⟨_, hs⟩ | ⟨_, hs⟩ <;> rw [hs]
  · exact cursorSound_complete _ _
  · exact h.of_fields_eq rfl

/-! ### Every step -/

theorem cursorSound_of_eventCases {s t : State} {e : Event} (h : CursorSound s) (hseq : SequencerSound s)
    (htable : DeviceTableSound s) (hevent : EventCases s t e) : CursorSound t := by
  cases e with
  | hostRead off => obtain rfl := hevent; exact h.of_fields_eq rfl
  | hostWrite off w =>
    rcases hevent with ⟨_, hexec⟩ | ⟨_, rfl⟩
    · exact cursorSound_of_command h hseq htable hexec
    · exact h.of_fields_eq (cursorFields_writeReg w s _)
  | reset => obtain rfl := hevent; exact cursorSound_resetState s
  | blockStep => obtain rfl := hevent; exact cursorSound_blockStep h
  | rxByte b => obtain rfl := hevent; exact h.of_fields_eq rfl
  | rxQuiet =>
    rcases hevent with ⟨_, rfl⟩ | ⟨err, _, _, rfl⟩ | ⟨f, _, _, rfl⟩
    · exact h
    · cases err <;> exact h.of_fields_eq rfl
    · exact cursorSound_deliver f (h.of_fields_eq rfl) (hseq.of_fields_eq rfl)
  | rxTimeout => obtain rfl := hevent; exact cursorSound_rxTimeout h
  | settleElapsed =>
    rcases hevent with ⟨_, rfl⟩ | ⟨hmux, rfl⟩
    · exact h
    · exact cursorSound_pollSlot (hseq.curOp_of_poll_state (.inl hmux)) fun d k hfirst =>
        lt_devCount_of_scanSlots hfirst
  | linkError => obtain rfl := hevent; exact cursorSound_linkError h

/-- Settles O57: the block's turn and each event keep the operands on discovered devices. -/
theorem everyStepKeepsCursorSound : Obligations.EveryStepKeepsCursorSound := by
  unfold Obligations.EveryStepKeepsCursorSound
  intro s t hseq htable h hstep
  rcases step_cases hstep with ⟨_, rfl⟩ | ⟨e, rest, _, hevent⟩
  · exact cursorSound_blockStep h
  · have htable : DeviceTableSound (setInputs rest s) := htable.of_addr_eq rfl rfl (fun _ => rfl) fun _ _ => rfl
    exact cursorSound_of_eventCases (s := setInputs rest s) (h.of_fields_eq rfl) (hseq.of_fields_eq rfl) htable hevent

end Sys2Proof.Machine
end

section
/-! SUPPORT. What keeps the code registers at listed codes (60_exceptions R134), operation by operation: `err` takes the
code of a completion, `resp_code` a unicast result and `last_frame_err` a frame error; with it O55. -/

namespace Sys2Proof.Machine

/-! ### What legality reads -/

/-- What `CodesLegal` reads of a state. -/
def codeFields (s : State) : BitVec 4 × BitVec 4 × BitVec 4 := (s.ctl.err, s.resp.code, s.cnt.lastFrameErr)

theorem CodesLegal.of_fields_eq {s t : State} (h : CodesLegal s) (heq : codeFields t = codeFields s) :
    CodesLegal t := by
  simp only [codeFields, Prod.mk.injEq] at heq
  obtain ⟨err, code, last⟩ := heq
  exact ⟨err ▸ h.err, code ▸ h.respCode, last ▸ h.lastFrameErr⟩

/-! ### The codes that are written -/

/-- Every code an operation can complete with may stand in `err` (R134). -/
theorem legalErr_bits (c : Code) : legalErr c.bits = true := by cases c <;> rfl

/-- Every frame error is coded from 1 to 3 (R134). -/
theorem frameErrorBits_le (e : FrameError) : (frameErrorBits e).toNat ≤ 3 := by cases e <;> decide

theorem codesLegal_complete (c : Code) {s : State} (h : CodesLegal s) : CodesLegal (complete c s) :=
  ⟨legalErr_bits c, h.respCode, h.lastFrameErr⟩

/-- An accepted operation starts with `err` at 0 (42_multiplexer R107). -/
theorem codesLegal_accept (op : CurOp) {s : State} (h : CodesLegal s) : CodesLegal (accept op s) :=
  ⟨rfl, h.respCode, h.lastFrameErr⟩

theorem codesLegal_storeResponse (r : Response) {s : State} (h : CodesLegal s) : CodesLegal (storeResponse r s) :=
  ⟨h.err, rfl, h.lastFrameErr⟩

/-- A failed transaction stores a code that the unicast results list (42_multiplexer R123, R134). -/
theorem codesLegal_storeFailure {c : Code} (hc : legalRespCode c.bits = true) {s : State} (h : CodesLegal s) :
    CodesLegal (storeFailure c s) := ⟨h.err, hc, h.lastFrameErr⟩

/-- A frame error keeps its own code, whichever counter it moves (40_frame_codec R91). -/
theorem codesLegal_countFrameError (e : FrameError) {s : State} (h : CodesLegal s) :
    CodesLegal (countFrameError e s) := by
  have hlast : (countFrameError e s).cnt.lastFrameErr = frameErrorBits e := by cases e <;> rfl
  have hctl : (countFrameError e s).ctl = s.ctl := by cases e <;> rfl
  have hresp : (countFrameError e s).resp = s.resp := by cases e <;> rfl
  exact ⟨hctl ▸ h.err, hresp ▸ h.respCode, hlast ▸ frameErrorBits_le e⟩

theorem codesLegal_resetState (s : State) : CodesLegal (resetState s) := codesLegal_reset.of_fields_eq rfl

theorem codesLegal_refuse {s : State} (h : CodesLegal s) : CodesLegal (refuse s) := h.of_fields_eq rfl

/-! ### Host operations -/

theorem codesLegal_whenIdle {act : State → State} {s : State} (h : CodesLegal s) (hact : CodesLegal (act s)) :
    CodesLegal (whenIdle act s) := by
  rcases whenIdle_cases act s with ⟨_, hs⟩ | ⟨_, hs⟩ <;> rw [hs]
  · exact hact
  · exact codesLegal_refuse h

theorem codesLegal_discoverIdle {s : State} (h : CodesLegal s) : CodesLegal (discoverIdle s) :=
  (codesLegal_accept .discover h).of_fields_eq rfl

theorem codesLegal_enumerateIdle {s : State} (h : CodesLegal s) : CodesLegal (enumerateIdle s) := by
  have haccept : CodesLegal (accept .enumerate s) := codesLegal_accept _ h
  rcases enumerateIdle_cases s with ⟨_, hs⟩ | ⟨_, hs⟩ <;> rw [hs]
  · exact codesLegal_complete _ haccept
  · exact haccept.of_fields_eq rfl

theorem codesLegal_pollIdle {s : State} (h : CodesLegal s) : CodesLegal (pollIdle s) :=
  (codesLegal_accept .poll h).of_fields_eq rfl

theorem codesLegal_pollSlot (slot : Option (Nat × Nat)) {s : State} (h : CodesLegal s) :
    CodesLegal (pollSlot slot s) := by
  rcases pollSlot_cases slot s with ⟨_, hs⟩ | ⟨d, k, _, hs⟩ <;> rw [hs]
  · exact codesLegal_complete _ h
  · exact h.of_fields_eq rfl

theorem codesLegal_reservedOp {s : State} (h : CodesLegal s) : CodesLegal (reservedOp s) := by
  rcases reservedOp_cases s with ⟨_, hs⟩ | ⟨_, hs⟩ <;> rw [hs]
  · exact codesLegal_complete _ (codesLegal_accept _ h)
  · exact codesLegal_refuse h

theorem codesLegal_of_execContinuePoll {s t : State} (h : CodesLegal s) (hexec : execContinuePoll s = .next t) :
    CodesLegal t := by
  rcases execContinuePoll_cases s with ⟨_, hs⟩ | ⟨_, hs⟩ | ⟨_, _, hs⟩ <;>
    obtain rfl := Host.Outcome.next.inj (hs.symm.trans hexec)
  · exact codesLegal_complete _ (codesLegal_accept _ h)
  · exact codesLegal_pollSlot _ (h.of_fields_eq rfl)
  · exact codesLegal_refuse h

theorem codesLegal_of_execAbort {s t : State} (h : CodesLegal s) (hexec : execAbort s = .next t) : CodesLegal t := by
  rcases execAbort_cases s with ⟨_, hs⟩ | ⟨_, hs⟩ | ⟨_, _, hs⟩ <;>
    obtain rfl := Host.Outcome.next.inj (hs.symm.trans hexec)
  · exact h
  · exact h.of_fields_eq rfl
  · exact codesLegal_complete _ h

theorem codesLegal_of_command {w : Word} {s t : State} (h : CodesLegal s)
    (hexec : exec (decodeCommand w) s = .next t) : CodesLegal t := by
  rcases command_cases w s with hs | hs | hs | hs | hs | hs | hs | hs <;> rw [hs] at hexec
  case inr.inr.inr.inr.inl => exact codesLegal_of_execContinuePoll h hexec
  case inr.inr.inr.inr.inr.inl => exact codesLegal_of_execAbort h hexec
  all_goals obtain rfl := Host.Outcome.next.inj hexec
  · exact h
  · exact codesLegal_whenIdle h (codesLegal_discoverIdle h)
  · exact codesLegal_whenIdle h (codesLegal_enumerateIdle h)
  · exact codesLegal_whenIdle h (codesLegal_pollIdle h)
  · exact codesLegal_reservedOp h
  · exact codesLegal_resetState s

/-- No register but CMD reaches a code: STATUS clears flags only (20_memory R33, R36). -/
theorem codeFields_writeReg (w : Word) (s : State) (r : HostReg) : codeFields (writeReg w s r) = codeFields s := by
  cases r with
  | arg | crt =>
    rw [writeReg]
    split <;> rfl
  | _ => rfl

/-! ### The block's turn and the link events -/

theorem codesLegal_blockStep {s : State} (h : CodesLegal s) : CodesLegal (blockStep s) := by
  have hemit : CodesLegal (emitByte s) := h.of_fields_eq rfl
  rcases blockStep_cases s with ⟨_, hs⟩ | ⟨_, _, hs⟩ | ⟨_, _, _, hs⟩ | ⟨_, _, _, hs⟩ <;> rw [hs]
  · exact h
  · exact hemit
  · exact codesLegal_complete _ hemit
  · rcases enterNext_cases (emitByte s) with ⟨_, hn⟩ | ⟨_, hn⟩ | ⟨_, hn⟩ <;> rw [hn] <;> exact hemit.of_fields_eq rfl

theorem codesLegal_concludeOp (c : Code) {s : State} (h : CodesLegal s) : CodesLegal (concludeOp c s) := by
  rcases concludeOp_cases c s with ⟨_, hs⟩ | ⟨_, hs⟩ <;> rw [hs]
  · exact codesLegal_complete _ (h.of_fields_eq rfl)
  · exact h.of_fields_eq rfl

theorem codesLegal_concludeFailure {c : Code} (hc : legalRespCode c.bits = true) {s : State} (h : CodesLegal s) :
    CodesLegal (concludeFailure c s) := codesLegal_concludeOp c (codesLegal_storeFailure hc h)

/-- A unicast transaction ends OK or with one of the two fragment errors (42_multiplexer R121). -/
theorem codesLegal_uniResult (res : ReasmResult) {s : State} (h : CodesLegal s) : CodesLegal (uniResult res s) := by
  cases res with
  | pending => exact h
  | complete r => exact codesLegal_concludeOp .ok (codesLegal_storeResponse r h)
  | inconsistent => exact codesLegal_concludeFailure rfl h
  | overflow => exact codesLegal_concludeFailure rfl h

/-- The gather counts its errors and stores no code (42_multiplexer R124 to R126). -/
theorem codeFields_gatherResult (res : ReasmResult) (s : State) : codeFields (gatherResult res s) = codeFields s := by
  cases res with
  | complete r =>
    rw [gatherResult, gatherResponse]
    split
    · rcases gatherInsert_cases r.src (payloadSerial r.payload) (payloadTag r.payload) s with
        ⟨_, _, h⟩ | ⟨_, _, h⟩ | ⟨_, _, h⟩ <;> rw [h] <;> rfl
    · rfl
  | pending | inconsistent | overflow => rfl

theorem codesLegal_deliver (f : Frame) {s : State} (h : CodesLegal s) : CodesLegal (deliver f s) := by
  have hreasm : CodesLegal (reasmState f s) := h.of_fields_eq rfl
  rcases deliver_cases f s with ⟨_, hs⟩ | ⟨_, hs⟩ | ⟨_, _, hs⟩ <;> rw [hs]
  · exact codesLegal_uniResult _ hreasm
  · exact hreasm.of_fields_eq (codeFields_gatherResult _ _)
  · exact h.of_fields_eq rfl

/-- A unicast timeout is the third failed result of a transaction (42_multiplexer R122). -/
theorem codesLegal_rxTimeout {s : State} (h : CodesLegal s) : CodesLegal (doRxTimeout s) := by
  rcases doRxTimeout_cases s with ⟨_, _, hs⟩ | ⟨_, _, _, hs⟩ | ⟨_, _, _, hs⟩ | ⟨_, hs⟩ <;> rw [hs]
  · exact codesLegal_concludeFailure rfl h
  · exact codesLegal_complete _ h
  · exact codesLegal_complete _ h
  · exact h

theorem codesLegal_linkError {s : State} (h : CodesLegal s) : CodesLegal (doLinkError s) := by
  rcases doLinkError_cases s with ⟨_, hs⟩ | ⟨_, hs⟩ <;> rw [hs]
  · exact codesLegal_complete _ (h.of_fields_eq rfl)
  · exact h.of_fields_eq rfl

/-! ### Every step -/

theorem codesLegal_of_eventCases {s t : State} {e : Event} (h : CodesLegal s) (hevent : EventCases s t e) :
    CodesLegal t := by
  cases e with
  | hostRead off => obtain rfl := hevent; exact h.of_fields_eq rfl
  | hostWrite off w =>
    rcases hevent with ⟨_, hexec⟩ | ⟨_, rfl⟩
    · exact codesLegal_of_command h hexec
    · exact h.of_fields_eq (codeFields_writeReg w s _)
  | reset => obtain rfl := hevent; exact codesLegal_resetState s
  | blockStep => obtain rfl := hevent; exact codesLegal_blockStep h
  | rxByte b => obtain rfl := hevent; exact h.of_fields_eq rfl
  | rxQuiet =>
    rcases hevent with ⟨_, rfl⟩ | ⟨err, _, _, rfl⟩ | ⟨f, _, _, rfl⟩
    · exact h
    · exact codesLegal_countFrameError err (h.of_fields_eq rfl)
    · exact codesLegal_deliver f (h.of_fields_eq rfl)
  | rxTimeout => obtain rfl := hevent; exact codesLegal_rxTimeout h
  | settleElapsed =>
    rcases hevent with ⟨_, rfl⟩ | ⟨_, rfl⟩
    · exact h
    · exact codesLegal_pollSlot _ h
  | linkError => obtain rfl := hevent; exact codesLegal_linkError h

/-- Settles O55: the block's turn and each event write only listed codes to the code registers. -/
theorem everyStepKeepsCodesLegal : Obligations.EveryStepKeepsCodesLegal := by
  unfold Obligations.EveryStepKeepsCodesLegal
  intro s t h hstep
  rcases step_cases hstep with ⟨_, rfl⟩ | ⟨e, rest, _, hevent⟩
  · exact codesLegal_blockStep h
  · exact codesLegal_of_eventCases (s := setInputs rest s) (h.of_fields_eq rfl) hevent

end Sys2Proof.Machine
end

section
/-! SUPPORT. The interrupt line and its two sources (60_exceptions R142); with it O60. -/

namespace Sys2Proof.Machine

theorem hold_iff (s : State) : hold s = true ↔ s.seq.muxState = .hold := beq_iff_eq

/-- The line is `ie AND (done OR hold)` (R142). -/
theorem irq_iff (s : State) : irq s = true ↔ s.ctl.ie = true ∧ (s.ctl.done = true ∨ s.seq.muxState = .hold) := by
  rw [irq, Bool.and_eq_true, Bool.or_eq_true, hold_iff]

/-- A sound sequencer that holds a result is busy, so its operation has not completed (R142). -/
theorem SequencerSound.not_done_and_hold {s : State} (h : SequencerSound s) :
    ¬(s.ctl.done = true ∧ s.seq.muxState = .hold) := by
  rintro ⟨hdone, hmux⟩
  obtain ⟨hclear, _⟩ := h.not_done (by simp [hmux])
  exact absurd (hdone.symm.trans hclear) nofun

/-- Settles O60: the line's equation, its value at reset, and `SequencerSound.not_done_and_hold`. -/
theorem interruptLineFollowsItsSources : Obligations.InterruptLineFollowsItsSources := by
  unfold Obligations.InterruptLineFollowsItsSources
  exact ⟨irq_iff, rfl, fun _ h => h.not_done_and_hold⟩

end Sys2Proof.Machine
end
